-- ==== Sys2Proof/Word.lean ====
section
/-! DEFINITION. The machine's word types (10_state.md, 20_memory.md): the widths the spec fixes, and nothing else. -/

namespace Sys2Proof

/-- One byte of the loaded bitstream (20_memory.md R62). -/
abbrev Byte := BitVec 8

/-- `PARAM_W` of this machine (00_scope.md R7, D23), which `hw` gives to `Config.paramW`. -/
abbrev paramW : Nat := 11

/-- A parameter register of this machine: a signed, two's complement integer of `PARAM_W` bits (10_state.md R20). -/
abbrev Param := BitVec paramW

/-- `LAT_W` of this machine (00_scope.md R7, D6), which `hw` gives to `Config.latW`. -/
abbrev latW : Nat := 40

/-- A delay element of this machine: a signed fixed-point number of `LAT_W` bits (10_state.md R30). -/
abbrev Delay := BitVec latW

/-- One PCM sample, 16 bits signed (20_memory.md R65, R69). -/
abbrev Sample := BitVec 16

/-- The bitstream space `BS` (20_memory.md R60): the listed bytes by address. What an unlisted address reads as is
`Memory.unlisted`; the canonical form is `Memory.wf` (Machine/Memory.lean). -/
abbrev Memory := List Host.Cell

end Sys2Proof
end

