-- ==== Sys2Proof/Machine/Memory.lean ====
section
/-! DEFINITION. The bitstream space `BS` (20_memory.md R60 to R63): byte, bit and field reads, the one way it is written
(LOAD installs a whole buffer), and its canonical form. -/

namespace Sys2Proof

/-- What a byte address that is not listed reads as. Within the buffer it stands for a loaded zero byte, since LOAD gives
every byte of the buffer a value (DESIGN CHOICE, log 7); past the buffer no rule reads (20_memory.md R63). -/
def Memory.unlisted : Byte := 0#8

/-- `BS[a]` (20_memory.md R62). -/
def Memory.read : Memory → Nat → Byte
  | [], _ => Memory.unlisted
  | (b, v) :: rest, a => if b = a then v else Memory.read rest a

/-- The canonical form from address `lo` on: addresses strictly rising, no listed byte equal to what an unlisted one
reads as. -/
def Memory.wfFrom : Nat → Memory → Bool
  | _, [] => true
  | lo, (a, v) :: rest => decide (lo ≤ a) && decide (v ≠ Memory.unlisted) && Memory.wfFrom (a + 1) rest

/-- The canonical form of a memory. -/
def Memory.wf (m : Memory) : Bool := Memory.wfFrom 0 m

/-- Every listed address is below `len`: the buffer has no byte elsewhere (20_memory.md R60). -/
def Memory.within (m : Memory) (len : Nat) : Bool := m.all fun c => decide (c.1 < len)

/-- The cells of a byte sequence laid out from address `a` on. -/
def Memory.ofBytesFrom : Nat → List Byte → Memory
  | _, [] => []
  | a, v :: rest => if v = Memory.unlisted then Memory.ofBytesFrom (a + 1) rest else (a, v) :: Memory.ofBytesFrom (a + 1) rest

/-- The buffer a LOAD installs: byte `i` of the sequence at address `i` (20_memory.md R61). -/
def Memory.ofBytes (bytes : List Byte) : Memory := Memory.ofBytesFrom 0 bytes

/-- `Bit(b) = (BS[b div 8] >> (b mod 8)) & 1` (20_memory.md R62). -/
def Memory.bit (m : Memory) (b : Nat) : Bool := (m.read (b / 8)).getLsbD (b % 8)

/-- `ReadBits(pos, w)`, the sum over `j` in `0..w-1` of `Bit(pos + j) << j` (20_memory.md R63): the first bit read is bit 0
of the value. Its callers check that the field lies in the buffer. -/
def Memory.readBits (m : Memory) (pos : Nat) : Nat → Nat
  | 0 => 0
  | w + 1 => Memory.readBits m pos w + (m.bit (pos + w)).toNat <<< w

end Sys2Proof
end

