-- ==== Sys2Proof/Machine/Constants.lean ====
section
/-! DEFINITION. The constants the source fixes, which "must match bit-for-bit" (00_scope.md R6). -/

namespace Sys2Proof.Machine

/-- `KW` (R6): the width of each K field, K1 first. -/
def kWidths : List Nat := [5, 5, 4, 4, 4, 4, 4, 3, 3, 3]

/-- `KW[i]`. -/
def kWidth (i : Nat) : Nat := kWidths.getD i 0

/-- `KCARD[i] = 2^KW[i]` (R6): the number of entries of `K_TABLE[i]`. -/
def kCard (i : Nat) : Nat := [32, 32, 16, 16, 16, 16, 16, 8, 8, 8].getD i 0

/-- The stream offset of field `k(i+1)` in its frame (30_encoding.md R90). -/
def kOffset (i : Nat) : Nat := [11, 16, 21, 25, 29, 33, 37, 41, 44, 47].getD i 0

/-- `SHIFT` (R6), index 0 first. -/
def shiftTable : List Nat := [0, 3, 3, 3, 2, 2, 1, 1]

/-- `SPI`: samples per interpolation period (R6). -/
def samplesPerPeriod : Nat := 25

/-- `IPF`: interpolation periods per frame (R6). -/
def periodsPerFrame : Nat := 8

/-- The LFSR seed (R6, R29). -/
def lfsrSeed : BitVec 17 := 0x1FFFF#17

/-- The noise amplitude (R6, R176). -/
def noiseAmplitude : Int := 64

/-- The default safety cap of RENDER in samples, 30 s (R6, R240). -/
def defaultCap : Nat := 240000

end Sys2Proof.Machine
end

