-- ==== Sys2Proof/Frame.lean ====
section
/-! DEFINITION. The operand data of the instructions: frame records, host commands, and the three answers of the frame
decoder. The instructions themselves are `Instr` in Syntax.lean. -/

namespace Sys2Proof

/-- A frame record (30_encoding.md R98; the value frame of 44_engine.md R234). Indices and values are integers as the host
gives them: an out-of-range one is clamped when the record is pulled (R233, R234). The number of K's is fixed by the tag
("field presence is type-enforced", R233; U11; DEDUCED, log 17). -/
inductive FrameRecord where
  /-- Ends speaking at once (R122). -/
  | stop
  /-- All targets to zero (R123). -/
  | silence
  /-- New energy and pitch, K targets kept (R124). -/
  | repeatFrame (energy pitch : Int)
  /-- Energy and K1..K4; pitch 0, K5..K10 zero (R125). -/
  | unvoiced (energy : Int) (k : Vector Int 4)
  /-- Energy, pitch and K1..K10 (R126). -/
  | voiced (energy pitch : Int) (k : Vector Int 10)
  /-- Register values given directly, no table (R234); exists in the frame queue only. -/
  | values (energy pitch : Int) (k : Vector Int 10)
deriving DecidableEq, Repr

/-- What the host can ask of the core (44_engine.md R220): four commands and one status read. -/
inductive Command where
  | reset
  | load (bytes : List Byte)
  | loadFrames (frames : List FrameRecord)
  | step
  | status
deriving DecidableEq, Repr

/-- What `DecodeFrame` returns (40_frame_decoder.md R120): a record with the bit address after it, the clean end of the
stream, or a stream that ends inside a frame (R127). -/
inductive Decoded where
  | frame (f : FrameRecord) (next : Nat)
  | ended
  | malformed
deriving DecidableEq, Repr

end Sys2Proof
end

