-- ==== Sys2Proof/Syntax.lean ====
section
/-! DEFINITION. The instructions: one constructor per row of spec/opcode_table.json. -/

namespace Sys2Proof

/-- The five frames of the bitstream and the value frame (40_frame_decoder.md, 44_engine.md R234), and the five things the
host can ask of the core (44_engine.md R220). -/
inductive Instr where
  /-- STOP (R122). -/
  | stop
  /-- SILENCE (R123). -/
  | silence
  /-- REPEAT (R124): energy index, pitch index. -/
  | repeatFrame (energy pitch : Int)
  /-- UNVOICED (R125): energy index, K1..K4 indices. -/
  | unvoiced (energy : Int) (k : Vector Int 4)
  /-- VOICED (R126): energy index, pitch index, K1..K10 indices. -/
  | voiced (energy pitch : Int) (k : Vector Int 10)
  /-- VALUES (R234): register values. -/
  | values (energy pitch : Int) (k : Vector Int 10)
  /-- RESET (R221). -/
  | reset
  /-- LOAD (R222): the byte buffer. -/
  | load (bytes : List Byte)
  /-- LOAD_FRAMES (R223): the frame queue. -/
  | loadFrames (frames : List FrameRecord)
  /-- STEP (R224). -/
  | step
  /-- STATUS (R235). -/
  | status
deriving DecidableEq, Repr

/-- The instruction a frame record stands for. -/
def FrameRecord.toInstr : FrameRecord → Instr
  | .stop => .stop
  | .silence => .silence
  | .repeatFrame e p => .repeatFrame e p
  | .unvoiced e k => .unvoiced e k
  | .voiced e p k => .voiced e p k
  | .values e p k => .values e p k

/-- The instruction a host command stands for. -/
def Command.toInstr : Command → Instr
  | .reset => .reset
  | .load bytes => .load bytes
  | .loadFrames frames => .loadFrames frames
  | .step => .step
  | .status => .status

/-- The frame record of a frame instruction; the host commands have none (30_encoding.md R102). -/
def Instr.frame? : Instr → Option FrameRecord
  | .stop => some .stop
  | .silence => some .silence
  | .repeatFrame e p => some (.repeatFrame e p)
  | .unvoiced e k => some (.unvoiced e k)
  | .voiced e p k => some (.voiced e p k)
  | .values e p k => some (.values e p k)
  | .reset => none
  | .load _ => none
  | .loadFrames _ => none
  | .step => none
  | .status => none

end Sys2Proof
end

