-- ==== Sys2Proof/WellFormed.lean ====
section
/-! DEFINITION. When a frame record and an instruction are well-formed (30_encoding.md R99). -/

namespace Sys2Proof

open Sys2Proof.Machine

/-- `E` in 1..14: an energy index that selects neither SILENCE nor STOP (R99). -/
def speechEnergy (e : Int) : Bool := decide (1 ≤ e) && decide (e ≤ 14)

/-- Every K index is in its table: `0 ≤ k[i] < KCARD[i]` (R99). -/
def kIndicesOk {n : Nat} (k : Vector Int n) : Bool :=
  decide (∀ i : Fin n, 0 ≤ k[i] ∧ k[i] < (kCard i.val : Int))

/-- Every K value is in its register's legal range (10_state.md R21). -/
def kValuesOk (k : Vector Int 10) : Bool := decide (∀ i : Fin 10, -512 ≤ k[i] ∧ k[i] ≤ 512)

/-- A well-formed frame record (R99). R99 speaks of the five frames with bits; a value frame is called well-formed here when
none of the clamps of R234 acts on it (DESIGN CHOICE, log 15, safe: only statements use it). -/
def FrameRecord.wf : FrameRecord → Bool
  | .stop => true
  | .silence => true
  | .repeatFrame e p => speechEnergy e && decide (0 ≤ p) && decide (p ≤ 63)
  | .unvoiced e k => speechEnergy e && kIndicesOk k
  | .voiced e p k => speechEnergy e && decide (1 ≤ p) && decide (p ≤ 63) && kIndicesOk k
  | .values e p k => decide (0 ≤ e) && decide (e ≤ 114) && decide (0 ≤ p) && decide (p ≤ 159) && kValuesOk k

/-- The record has a bitstream encoding; a value frame has none (R102). -/
def FrameRecord.hasBits : FrameRecord → Bool
  | .stop => true
  | .silence => true
  | .repeatFrame _ _ => true
  | .unvoiced _ _ => true
  | .voiced _ _ _ => true
  | .values _ _ _ => false

/-- The record can be encoded: it has bits and is well-formed (R99). -/
def FrameRecord.encodable (f : FrameRecord) : Bool := f.hasBits && f.wf

/-- A well-formed instruction: a frame by its record; a host command always, since any buffer and any record list is
accepted (R222, R233). -/
def Instr.wf : Instr → Bool
  | .stop => FrameRecord.wf .stop
  | .silence => FrameRecord.wf .silence
  | .repeatFrame e p => FrameRecord.wf (.repeatFrame e p)
  | .unvoiced e k => FrameRecord.wf (.unvoiced e k)
  | .voiced e p k => FrameRecord.wf (.voiced e p k)
  | .values e p k => FrameRecord.wf (.values e p k)
  | .reset => true
  | .load _ => true
  | .loadFrames _ => true
  | .step => true
  | .status => true

end Sys2Proof
end

