-- ==== Sys2Proof/Decode.lean ====
section
/-! DEFINITION. The bit reader's frame decoder (40_frame_decoder.md R120, R127, R128) and, after it, the encoder
(30_encoding.md R99, R100). -/

namespace Sys2Proof

open Sys2Proof.Machine

/-- Field `energy`, offsets 0..3 (30_encoding.md R90). -/
def energyAt (m : Memory) (pos : Nat) : Nat := m.readBits pos 4

/-- Field `repeat`, offset 4. -/
def repeatAt (m : Memory) (pos : Nat) : Nat := m.readBits (pos + 4) 1

/-- Field `pitch`, offsets 5..10. -/
def pitchAt (m : Memory) (pos : Nat) : Nat := m.readBits (pos + 5) 6

/-- Field `k(i+1)`. -/
def kAt (m : Memory) (pos i : Nat) : Nat := m.readBits (pos + kOffset i) (kWidth i)

/-- Fields `k1..kn` of the frame at `pos`, each an unsigned index exactly as read (30_encoding.md R93). -/
def ksAt (n : Nat) (m : Memory) (pos : Nat) : Vector Int n := Vector.ofFn fun i : Fin n => (kAt m pos i.val : Int)

/-- The stream of `len` bytes holds `n` more bits at bit address `pos`. -/
def fits (len pos n : Nat) : Bool := decide (pos + n ≤ 8 * len)

/-- `DecodeFrame(pos)` (40_frame_decoder.md R120) on the stream of `len` bytes in `m`. The fields follow one another, so the
`need` of the last field of a group stands for the needs of the group: the frame has 4, 11, 29 or 50 bits and a field
that does not fit makes the frame `malformed` (R127; DEDUCED, log 18, safe). A `pos` past the stream, outside the range of R23,
is answered `ended` (DESIGN CHOICE, log 10; the invariant excludes it). -/
def decodeFrame (m : Memory) (len pos : Nat) : Decoded :=
  if 8 * len - pos = 0 then .ended
  else if fits len pos 4 = false then .malformed
  else if energyAt m pos = 15 then .frame .stop (pos + 4)
  else if energyAt m pos = 0 then .frame .silence (pos + 4)
  else if fits len pos 11 = false then .malformed
  else if repeatAt m pos = 1 then .frame (.repeatFrame (energyAt m pos) (pitchAt m pos)) (pos + 11)
  else if fits len pos 29 = false then .malformed
  else if pitchAt m pos = 0 then .frame (.unvoiced (energyAt m pos) (ksAt 4 m pos)) (pos + 29)
  else if fits len pos 50 = false then .malformed
  else .frame (.voiced (energyAt m pos) (pitchAt m pos) (ksAt 10 m pos)) (pos + 50)

/-- `DecodeAll` from bit address `pos`, at most `fuel` frames: the frames, and whether the stream was malformed. -/
def decodeFrom (m : Memory) (len : Nat) : Nat → Nat → List FrameRecord × Bool
  | 0, _ => ([], false)
  | fuel + 1, pos =>
    match decodeFrame m len pos with
    | .ended => ([], false)
    | .malformed => ([.stop], true)
    | .frame .stop _ => ([.stop], false)
    | .frame f next => (f :: (decodeFrom m len fuel next).1, (decodeFrom m len fuel next).2)

/-- `DecodeAll(BS)`, the pure function from a bitstream to frames (R128). Every frame takes at least 4 bits, so `2 n + 1`
rounds suffice for `n` bytes. -/
def decodeAll (bytes : List Byte) : List FrameRecord × Bool :=
  decodeFrom (Memory.ofBytes bytes) bytes.length (2 * bytes.length + 1) 0

/-- `Put(v, w)`: the `w` bits of `v`, bit 0 first (30_encoding.md R100). -/
def putBits (v : Int) (w : Nat) : List Bool := (List.range w).map fun j => v.toNat.testBit j

/-- The K fields in order, each in its own width. -/
def putKs : List Int → List Nat → List Bool
  | k :: ks, w :: ws => putBits k w ++ putKs ks ws
  | _, _ => []

/-- The bits of one record in stream order (R100); a value frame has none (R102). -/
def frameBits : FrameRecord → List Bool
  | .stop => putBits 15 4
  | .silence => putBits 0 4
  | .repeatFrame e p => putBits e 4 ++ putBits 1 1 ++ putBits p 6
  | .unvoiced e k => putBits e 4 ++ putBits 0 1 ++ putBits 0 6 ++ putKs k.toList kWidths
  | .voiced e p k => putBits e 4 ++ putBits 0 1 ++ putBits p 6 ++ putKs k.toList kWidths
  | .values _ _ _ => []

/-- The encoding of one instruction: the bits of a well-formed frame; nothing for a malformed record, a value frame or a
host command (R99, R102). -/
def encode (i : Instr) : Option (List Bool) :=
  match i.frame? with
  | some f => if f.encodable then some (frameBits f) else none
  | none => none

/-- The value of a bit list, bit 0 first. -/
def bitsToNat : List Bool → Nat
  | [] => 0
  | b :: rest => b.toNat + 2 * bitsToNat rest

/-- Bits packed into bytes: byte `n` holds stream bits `8n..8n+7`, bit `8n+j` at bit `j`; the last byte is padded with
zeros (R100). -/
def packBits (bits : List Bool) : List Byte :=
  (List.range ((bits.length + 7) / 8)).map fun n => BitVec.ofNat 8 (bitsToNat ((bits.drop (8 * n)).take 8))

/-- The frame list with the STOP the encoder appends when the list does not end with one (R100). -/
def withStop (frames : List FrameRecord) : List FrameRecord :=
  if frames.getLast? = some .stop then frames else frames ++ [.stop]

/-- `Encode(F)` (R100); it refuses a list that holds a record it cannot encode (R99, D33). -/
def encodeStream (frames : List FrameRecord) : Option (List Byte) :=
  if frames.all FrameRecord.encodable then some (packBits ((withStop frames).flatMap frameBits)) else none

/-- The bytes of an instruction of `nbits` bits given as the number `w` (bit 0 first), padded with zero bytes up to the
longest frame, 50 bits in 7 bytes. -/
def tableBytes (nbits w : Nat) : List Byte :=
  (List.range (max 7 ((nbits + 7) / 8))).map fun i => BitVec.ofNat 8 ((w % 2 ^ nbits) >>> (8 * i))

/-- The instruction the decoder reads from a word numbered as spec/opcode_table.json numbers it: bit `j` of the word is
stream offset `j`. Rows are tested in the table's priority order (R94; log 19). -/
def decodeTableWord (nbits w : Nat) : Option Instr :=
  match decodeFrame (Memory.ofBytes (tableBytes nbits w)) (tableBytes nbits w).length 0 with
  | .frame f _ => some f.toInstr
  | .ended => none
  | .malformed => none

end Sys2Proof
end

