-- ==== Sys2Proof/Config.lean ====
section
/-! DEFINITION. The configuration (00_scope.md R7): its fields, the constraints every instance must meet (R8), and the OPEN
parameters as opaque constants with no body. The instance the machine runs on is `Machine.hw` (Machine/Hardware.lean). -/

namespace Sys2Proof

/-- The named parameters of the model (00_scope.md R7), fixed for a machine. `BS_LEN`, "given at LOAD", is state. -/
structure Config where
  /-- `ENERGY_TABLE[i]` -/
  energyTable : Nat → Int
  /-- `PITCH_TABLE[i]` -/
  pitchTable : Nat → Int
  /-- `K_TABLE[t][i]` -/
  kTable : Nat → Nat → Int
  /-- `CHIRP_TABLE[i]` -/
  chirpTable : Nat → Int
  /-- `CHIRP_LEN` -/
  chirpLen : Nat
  /-- `INTERP_PHASE` -/
  interpPhase : Nat
  /-- `LFSR_FREE_RUN` -/
  lfsrFreeRun : Bool
  /-- `LAT_FRAC` -/
  latFrac : Nat
  /-- `LAT_W` -/
  latW : Nat
  /-- `KMul(k, x)`, the per-stage product -/
  kMul : Int → Int → Int
  /-- `BL_THRESHOLD` -/
  blThreshold : Nat
  /-- `CAP`, the cap of RENDER "unless the caller gives another" -/
  cap : Nat
  /-- `PARAM_W` -/
  paramW : Nat

/-- 00_scope.md R8 and 10_state.md R36: what an admitted configuration satisfies (U4 refuses any other). `KCARD` is given
by its values (R6). `LAT_FRAC`, `LAT_W`, `INTERP_PHASE` and `KMul` are free (U13), but for what the last two say
(DEDUCED, log 22, safe). -/
structure Config.Admissible (c : Config) : Prop where
  energy : ∀ i < 16, 0 ≤ c.energyTable i ∧ c.energyTable i ≤ 114
  pitch : ∀ i < 64, c.pitchTable i = 0 ∨ (15 ≤ c.pitchTable i ∧ c.pitchTable i ≤ 159)
  pitchZero : c.pitchTable 0 = 0
  k : ∀ t < 10, ∀ i < [32, 32, 16, 16, 16, 16, 16, 8, 8, 8].getD t 0, -512 < c.kTable t i ∧ c.kTable t i < 512
  chirp : ∀ i < c.chirpLen, -128 ≤ c.chirpTable i ∧ c.chirpTable i ≤ 127
  threshold : c.blThreshold ≤ 16
  capPositive : 0 < c.cap
  /-- A register holds the legal values of 10_state.md R21; 11 is the "least width for the stated ranges" (D23). -/
  paramWidth : 11 ≤ c.paramW
  /-- A two's-complement number has at least one bit. -/
  latWidth : 0 < c.latW

/-- DESIGN CHOICE (log 5), safe: `ENERGY_TABLE` is OPEN (D11); entry `i`, an integer in 0..114. -/
opaque Config.freeEnergy : Fin 16 → Fin 115

/-- DESIGN CHOICE (log 5), safe: `PITCH_TABLE` is OPEN (D11); entry `i` is 0 (`none`) or 15 plus the value given. -/
opaque Config.freePitch : Fin 64 → Option (Fin 145)

/-- DESIGN CHOICE (log 5), safe: `K_TABLE[t]` is OPEN (D11); entry `i` is the value given less 511, so -511..511. -/
opaque Config.freeK : Fin 10 → Fin 32 → Fin 1023

/-- DESIGN CHOICE (log 5), safe: `CHIRP_TABLE` is OPEN (D11); a signed 8-bit entry. -/
opaque Config.freeChirp : Fin 53 → BitVec 8

/-- DESIGN CHOICE (log 5), safe: `BL_THRESHOLD` is OPEN in 0..16 (D18). -/
opaque Config.freeThreshold : Fin 17

end Sys2Proof
end

