-- ==== Sys2Proof/Machine/State.lean ====
section
/-! DEFINITION. Everything the core remembers between commands (10_state.md R40), what stands on the host's side of the
interface, and the reasons a step can stop. -/

namespace Sys2Proof.Machine

/-- Where frames come from (10_state.md R25). -/
inductive Mode where
  /-- NONE, after RESET. -/
  | none
  /-- BITSTREAM, after LOAD. -/
  | bitstream
  /-- FRAMES, after LOAD_FRAMES. -/
  | frames
deriving DecidableEq, Repr

/-- The four error conditions (60_exceptions.md R260). -/
inductive Condition where
  | malformedBitstream
  | overlongSpeech
  | invalidFrameParameter
  | latticeOverflow
deriving DecidableEq, Repr

/-- What STATUS returns (44_engine.md R235). -/
structure StatusReport where
  talkStatus : Bool
  bufferLow : Bool
  bufferEmpty : Bool
  err : BitVec 4
deriving DecidableEq, Repr

/-- Why the machine stops with a fault. -/
inductive Fault where
  /-- Raised by STEP when a stage output or delay element does not fit `LAT_W` bits (43_lattice.md R194, 60_exceptions.md
  R264). `stage` is the index `i` of the failing stage `i + 1`, `err` the error register with bit 3 set, "the only defined
  piece of state" afterwards (U2; DEDUCED, log 8). Safe: the run ends, where the spec leaves sample and delay line unspecified. -/
  | latticeOverflow (stage : Nat) (err : BitVec 4)
deriving DecidableEq, Repr

/-- Why the machine refuses. -/
inductive Refusal where
  /-- Raised by an arm of `exec` that has no meaning yet; no arm does. Safe. -/
  | notModelled (mnemonic : String)
  /-- Raised by LOAD, LOAD_FRAMES, STEP and STATUS before the first RESET, where all state is unspecified (R292, U1;
  log 4). Safe. -/
  | beforeReset
  /-- Raised by LOAD and LOAD_FRAMES while `speaking = 1`, unspecified in the spec (R236, U5; DEDUCED,
  log 9). Safe. -/
  | loadWhileSpeaking
  /-- Raised by RENDER and RENDER_FRAMES for a cap below 1 (U12; log 14). Safe. -/
  | capBelowOne
deriving DecidableEq, Repr

/-- The machine's state: the engine (R40), and the host's side of the interface in the last four fields. `pw` and `lw` are
`PARAM_W` and `LAT_W` (00_scope.md R7); `State` alone is the state of this machine, with its own widths (log 22). -/
structure State (pw : Nat := paramW) (lw : Nat := latW) where
  /-- `cur[0..11]`: energy, pitch, K1..K10 (R20). -/
  cur : Vector (BitVec pw) 12
  /-- `tgt[0..11]` (R20). -/
  tgt : Vector (BitVec pw) 12
  /-- `interp_period` (R26). -/
  interpPeriod : BitVec 3
  /-- `sample_in_period` (R27). -/
  sampleInPeriod : BitVec 5
  /-- `pitch_cursor` (R28). -/
  pitchCursor : BitVec 8
  /-- `noise_register` (R29). -/
  noiseRegister : BitVec 17
  /-- `d[0..10]` (R30, R31). -/
  d : Vector (BitVec lw) 11
  /-- `speaking` = `talk_status` (R32, R34). -/
  speaking : Bool
  /-- `err` (R33). -/
  err : BitVec 4
  /-- `mode` (R25). -/
  mode : Mode
  /-- `bitpos`, the program counter (R23). -/
  bitpos : Nat
  /-- `BS` (R38). -/
  bs : Memory
  /-- `BS_LEN` (R38). -/
  bsLen : Nat
  /-- `FQ`; `FQ_LEN` is its length (R38). -/
  fq : List FrameRecord
  /-- `fq_index` (R24). -/
  fqIndex : Nat
  /-- `decay_appended` (R24). -/
  decayAppended : Bool
  /-- The first RESET has happened (R292). DESIGN CHOICE (log 4), safe. -/
  isReset : Bool
  /-- The PCM space: every sample handed to the host, oldest first (20_memory.md R60, R69). DESIGN CHOICE (log 3). -/
  pcm : List Sample
  /-- The last report STATUS gave (R235). DESIGN CHOICE (log 3). -/
  statusOut : Option StatusReport
  /-- The host's queued commands, the next one first (R220, R246). DESIGN CHOICE (log 1), unsafe for claims about runs
  with an empty queue. -/
  hostCmds : List Command
deriving DecidableEq, Repr

/-- The machine of the given widths right after RESET (70_reset_and_hazards.md R290); nothing handed out, nothing queued (log 1, 3, 4). -/
def State.resetOf (pw lw : Nat) : State pw lw where
  cur := Vector.replicate 12 0#pw
  tgt := Vector.replicate 12 0#pw
  interpPeriod := 0#3
  sampleInPeriod := 0#5
  pitchCursor := 0#8
  noiseRegister := 0x1FFFF#17
  d := Vector.replicate 11 0#lw
  speaking := false
  err := 0#4
  mode := .none
  bitpos := 0
  bs := []
  bsLen := 0
  fq := []
  fqIndex := 0
  decayAppended := false
  isReset := true
  pcm := []
  statusOut := none
  hostCmds := []

/-- This machine right after RESET. -/
def State.reset : State := State.resetOf paramW latW

end Sys2Proof.Machine
end

