-- ==== Sys2Proof/Machine/Flags.lean ====
section
/-! DEFINITION. The error bits (60_exceptions.md R260) and the flags that are functions of state (10_state.md R34 to R36). -/

namespace Sys2Proof.Machine

variable {pw lw : Nat}

/-- The code of a condition, the number of its bit in `err` (R260). -/
def Condition.code : Condition → Nat
  | .malformedBitstream => 0
  | .overlongSpeech => 1
  | .invalidFrameParameter => 2
  | .latticeOverflow => 3

/-- The one-bit mask of a condition in `err` (R33). -/
def Condition.mask (c : Condition) : BitVec 4 := 1#4 <<< c.code

/-- The condition's bit of `err` is set. -/
def State.hasErr (s : State pw lw) (c : Condition) : Bool := s.err.getLsbD c.code

/-- `talk_status = speaking` (R34). -/
def State.talkStatus (s : State pw lw) : Bool := s.speaking

/-- `bytes_left = BS_LEN - ceil(bitpos / 8)` (R35). With `bitpos` past the stream, outside the range of R23, it is 0 (DESIGN
CHOICE, log 10; the invariant excludes it). -/
def State.bytesLeft (s : State pw lw) : Nat := s.bsLen - (s.bitpos + 7) / 8

/-- `buffer_empty` (R35). -/
def State.bufferEmpty (s : State pw lw) : Bool := decide (s.bytesLeft = 0)

/-- `buffer_low` (R36). -/
def State.bufferLow (cfg : Config) (s : State pw lw) : Bool := decide (s.bytesLeft ≤ cfg.blThreshold)

/-- What STATUS returns, as the flags stand (44_engine.md R235). -/
def State.report (cfg : Config) (s : State pw lw) : StatusReport where
  talkStatus := s.talkStatus
  bufferLow := s.bufferLow cfg
  bufferEmpty := s.bufferEmpty
  err := s.err

end Sys2Proof.Machine
end

