-- ==== Sys2Proof/Machine/Operands.lean ====
section
/-! DEFINITION. Operand forms and arithmetic: the integer operations of 00_scope.md R9, table reads (20_memory.md R66) and
the clamping of frame operands (44_engine.md R233, R234). -/

namespace Sys2Proof.Machine

variable {pw : Nat}

/-- `a >>a s = floor(a / 2^s)` (R9): integer division rounds down for a positive divisor. -/
def asr (a : Int) (s : Nat) : Int := a / 2 ^ s

/-- `clamp(v, lo, hi)` (R9). -/
def clamp (v lo hi : Int) : Int := if v < lo then lo else if hi < v then hi else v

/-- `KMul(k, X) = floor(k × X / 512)` (43_lattice.md R192). -/
def kMulFloor (k x : Int) : Int := k * x / 512

/-- A value as a parameter register of `pw` bits holds it: its low `pw` bits as a signed number (`sext_N`, 00_scope.md R11;
10_state.md R20). -/
def toParam (v : Int) : BitVec pw := BitVec.ofInt pw v

/-- `Rom(ENERGY_TABLE, e)` in a register. -/
def romEnergy (cfg : Config) (e : Int) : BitVec pw := toParam (cfg.energyTable e.toNat)

/-- `Rom(PITCH_TABLE, p)` in a register. -/
def romPitch (cfg : Config) (p : Int) : BitVec pw := toParam (cfg.pitchTable p.toNat)

/-- `Rom(K_TABLE[t], i)` in a register. -/
def romK (cfg : Config) (t : Nat) (i : Int) : BitVec pw := toParam (cfg.kTable t i.toNat)

/-- `E' = clamp(E, 0, 15)` (R233). -/
def energyIndex (e : Int) : Int := clamp e 0 15

/-- `P' = clamp(P, 0, 63)` (R233). -/
def pitchIndex (p : Int) : Int := clamp p 0 63

/-- `k'[i] = clamp(k[i], 0, KCARD[i] - 1)` (R233). -/
def kIndices {n : Nat} (k : Vector Int n) : Vector Int n :=
  Vector.ofFn fun i : Fin n => clamp k[i] 0 ((kCard i.val : Int) - 1)

/-- The K values of a value frame, each clamped to -512..512 (R234). -/
def kValues (k : Vector Int 10) : Vector Int 10 := Vector.ofFn fun i : Fin 10 => clamp k[i] (-512) 512

/-- The energy of a value frame, clamped to 0..114 (R234). -/
def energyValue (e : Int) : Int := clamp e 0 114

/-- The pitch of a value frame, clamped to 0..159 (R234). -/
def pitchValue (p : Int) : Int := clamp p 0 159

/-- The twelve targets of a frame that sets all of them: energy, pitch, K1..K10. -/
def targets (e p : BitVec pw) (k : Fin 10 → BitVec pw) : Vector (BitVec pw) 12 :=
  #v[e, p, k 0, k 1, k 2, k 3, k 4, k 5, k 6, k 7, k 8, k 9]

end Sys2Proof.Machine
end

