-- ==== Sys2Proof/Machine/Ops.lean ====
section
/-! DEFINITION. The named operations on the state: raising a condition, the register writes the rules make, installing a
program, the output stream, and the host's command port. -/

namespace Sys2Proof.Machine

variable {pw lw : Nat}

/-- The answer of a meaning on a machine of the given widths; `Answer` alone is this machine's. -/
abbrev Answer (pw : Nat := paramW) (lw : Nat := latW) := Host.Outcome (State pw lw) Fault Refusal

/-- Goes on with `f` after a next state; a fault or a refusal ends it. -/
def andThen (o : Answer pw lw) (f : State pw lw → Answer pw lw) : Answer pw lw :=
  match o with
  | .next s => f s
  | .fault r => .fault r
  | .refused r => .refused r

/-- `raise X` (60_exceptions.md R266), the one way a condition is entered: its bit of `err` becomes 1 and nothing else
changes. No pc is saved, no mode changes, no handler runs, so there is no return (R268): only RESET clears `err`. -/
def State.raise (c : Condition) (s : State pw lw) : State pw lw := { s with err := s.err ||| c.mask }

/-- `raise X` when `changed` (R233, R234: a clamp acted). -/
def State.raiseIf (changed : Bool) (c : Condition) (s : State pw lw) : State pw lw := if changed then s.raise c else s

/-- Writes all target registers. -/
def State.setTgt (v : Vector (BitVec pw) 12) (s : State pw lw) : State pw lw := { s with tgt := v }

/-- `Promote()` (44_engine.md R228): `cur[j] <- tgt[j]` for every `j`. -/
def State.promote (s : State pw lw) : State pw lw := { s with cur := s.tgt }

/-- `speaking <- 0` (10_state.md R32). -/
def State.stopSpeaking (s : State pw lw) : State pw lw := { s with speaking := false }

/-- `interp_period` and `sample_in_period`, as values in their widths (10_state.md R26, R27). -/
def State.setCounters (ip sip : Nat) (s : State pw lw) : State pw lw :=
  { s with interpPeriod := BitVec.ofNat 3 ip, sampleInPeriod := BitVec.ofNat 5 sip }

/-- The excitation generator's registers (42_excitation.md). -/
def State.setExcitation (cursor : BitVec 8) (noise : BitVec 17) (s : State pw lw) : State pw lw :=
  { s with pitchCursor := cursor, noiseRegister := noise }

/-- The delay line (43_lattice.md R193). -/
def State.setDelay (v : Vector (BitVec lw) 11) (s : State pw lw) : State pw lw := { s with d := v }

/-- `bitpos <- v` (10_state.md R23). -/
def State.setBitpos (v : Nat) (s : State pw lw) : State pw lw := { s with bitpos := v }

/-- `fq_index <- v` (10_state.md R24). -/
def State.setFqIndex (v : Nat) (s : State pw lw) : State pw lw := { s with fqIndex := v }

/-- `decay_appended <- 1` (44_engine.md R232). -/
def State.markDecay (s : State pw lw) : State pw lw := { s with decayAppended := true }

/-- What LOAD writes before its Pull (44_engine.md R222). -/
def State.installBits (bytes : List Byte) (s : State pw lw) : State pw lw :=
  { s with
    mode := .bitstream, bs := Memory.ofBytes bytes, bsLen := bytes.length, bitpos := 0
    fq := [], fqIndex := 0, decayAppended := false, speaking := true }

/-- What LOAD_FRAMES writes before its Pull (44_engine.md R223). -/
def State.installFrames (frames : List FrameRecord) (s : State pw lw) : State pw lw :=
  { s with
    mode := .frames, fq := frames, fqIndex := 0, decayAppended := false
    bs := [], bsLen := 0, bitpos := 0, speaking := true }

/-- `PcmWrite(v)` (20_memory.md R69): one sample appended to the output stream. -/
def State.pcmWrite (v : Int) (s : State pw lw) : State pw lw := { s with pcm := s.pcm ++ [BitVec.ofInt 16 v] }

/-- The report STATUS hands to the host. -/
def State.setStatusOut (r : StatusReport) (s : State pw lw) : State pw lw := { s with statusOut := some r }

/-- A sample serialised: two's complement, low byte first (20_memory.md R65; DEDUCED, log 20). -/
def sampleBytes (v : Sample) : List Byte := [v.setWidth 8, (v >>> 8).setWidth 8]

/-- The output stream as "16-bit signed little-endian PCM" bytes (20_memory.md R65). -/
def State.pcmBytes (s : State pw lw) : List Byte := s.pcm.flatMap sampleBytes

/-- The host's next command: the first queued one, else STEP, the sample call that paces the core (44_engine.md R220, R246;
DESIGN CHOICE, log 1). -/
def State.nextCommand (s : State pw lw) : Command :=
  match s.hostCmds with
  | c :: _ => c
  | [] => .step

/-- The state once the next command is taken from the host's queue. -/
def State.dropCommand (s : State pw lw) : State pw lw := { s with hostCmds := s.hostCmds.tail }

/-- The host's next command is LOAD of `bytes`, given where the core accepts it: after a RESET and not speaking (R222,
R236, R292; log 2). -/
def State.queueLoad (bytes : List Byte) (s : State pw lw) : State pw lw :=
  { s with isReset := true, speaking := false, hostCmds := .load bytes :: s.hostCmds }

end Sys2Proof.Machine
end

