-- ==== Sys2Proof/Machine/Excitation.lean ====
section
/-! DEFINITION. The excitation generator, pipeline step 2 (42_excitation.md): chirp ROM, LFSR, pitch cursor. -/

namespace Sys2Proof.Machine

variable {pw lw : Nat}

/-- `ChirpSample()` at cursor `c` (R172). -/
def chirpSample (cfg : Config) (c : Nat) : Int := if c < cfg.chirpLen then cfg.chirpTable c else 0

/-- The LFSR update (R176): bit 0 xor bit 3 fed back into bit 16, the rest shifted right. -/
def lfsrNext (reg : BitVec 17) : BitVec 17 := (reg >>> 1) ||| (((reg ^^^ (reg >>> 3)) &&& 1#17) <<< 16)

/-- The output of `NoiseSample()` for the register after the update: its bit 0 gives the sign (R176). -/
def noiseSample (updated : BitVec 17) : Int := if updated.getLsbD 0 then noiseAmplitude else -noiseAmplitude

/-- `AdvancePitchCursor(eff_pitch)` (R174); from an illegal cursor it goes on in 8 bits (log 10). -/
def advanceCursor (effPitch : Int) (cursor : BitVec 8) : BitVec 8 :=
  if effPitch ≤ (cursor.toNat : Int) + 1 then 0#8 else BitVec.ofNat 8 (cursor.toNat + 1)

/-- The excitation sample `exc` (R170). -/
def exciteSample (cfg : Config) (effPitch : Int) (s : State pw lw) : Int :=
  if 0 < effPitch then chirpSample cfg s.pitchCursor.toNat else noiseSample (lfsrNext s.noiseRegister)

/-- The noise register after the sample: updated on an unvoiced sample, on a voiced one only if `LFSR_FREE_RUN` (R176, D5). -/
def exciteNoise (cfg : Config) (effPitch : Int) (s : State pw lw) : BitVec 17 :=
  if 0 < effPitch then (if cfg.lfsrFreeRun then lfsrNext s.noiseRegister else s.noiseRegister)
  else lfsrNext s.noiseRegister

/-- The registers EXCITE writes (R170): the sample is taken first, then the cursor advances. -/
def exciteState (cfg : Config) (effPitch : Int) (s : State pw lw) : State pw lw :=
  s.setExcitation (advanceCursor effPitch s.pitchCursor) (exciteNoise cfg effPitch s)

end Sys2Proof.Machine
end

