-- ==== Sys2Proof/Machine/Hardware.lean ====
section
/-! DEFINITION. The configuration this machine runs on: the OPEN parameters from Config.lean, the decided ones as
92_eei_decisions.md decides them (log 6). -/

namespace Sys2Proof.Machine

/-- The machine's configuration (00_scope.md R7). `PITCH_TABLE[0] = 0` is the spec's own constraint (R8, D11). -/
def hw : Config where
  energyTable i := ((Config.freeEnergy (Fin.ofNat 16 i)).val : Int)
  pitchTable i :=
    if i = 0 then 0
    else match Config.freePitch (Fin.ofNat 64 i) with
      | none => 0
      | some n => 15 + (n.val : Int)
  kTable t i := ((Config.freeK (Fin.ofNat 10 t) (Fin.ofNat 32 i)).val : Int) - 511
  chirpTable i := (Config.freeChirp (Fin.ofNat 53 i)).toInt
  chirpLen := 53
  interpPhase := 1
  lfsrFreeRun := false
  latFrac := 16
  latW := Sys2Proof.latW
  kMul := kMulFloor
  blThreshold := Config.freeThreshold.val
  cap := defaultCap
  paramW := Sys2Proof.paramW

end Sys2Proof.Machine
end

