-- ==== Sys2Proof/Machine/Frames.lean ====
section
/-! DEFINITION. What each frame does when it is pulled (40_frame_decoder.md R121 to R126), the clamping of records given
directly (44_engine.md R233, R234), and the meanings of the six frame instructions. -/

namespace Sys2Proof.Machine

variable {pw lw : Nat}

/-- Apply STOP (R122). -/
def applyStop (s : State pw lw) : State pw lw := s.stopSpeaking

/-- Apply SILENCE (R123): all twelve targets and both counters to zero. -/
def applySilence (s : State pw lw) : State pw lw := (s.setTgt (Vector.replicate 12 0#pw)).setCounters 0 0

/-- Apply REPEAT (R124): energy and pitch from the tables, K targets kept. -/
def applyRepeat (cfg : Config) (e p : Int) (s : State pw lw) : State pw lw :=
  s.setTgt ((s.tgt.set 0 (romEnergy cfg e)).set 1 (romPitch cfg p))

/-- Apply UNVOICED (R125): pitch entry 0, K1..K4 from the tables, K5..K10 the value 0. -/
def applyUnvoiced (cfg : Config) (e : Int) (k : Vector Int 4) (s : State pw lw) : State pw lw :=
  s.setTgt (targets (romEnergy cfg e) (romPitch cfg 0) fun i => if h : i.val < 4 then romK cfg i.val k[i.val] else 0#pw)

/-- Apply VOICED (R126). -/
def applyVoiced (cfg : Config) (e p : Int) (k : Vector Int 10) (s : State pw lw) : State pw lw :=
  s.setTgt (targets (romEnergy cfg e) (romPitch cfg p) fun i => romK cfg i.val k[i])

/-- A REPEAT record pulled (R233): indices clamped, the condition raised if a clamp acted, then applied. -/
def takeRepeat (cfg : Config) (e p : Int) (s : State pw lw) : State pw lw :=
  applyRepeat cfg (energyIndex e) (pitchIndex p)
    (s.raiseIf (decide (energyIndex e ≠ e) || decide (pitchIndex p ≠ p)) .invalidFrameParameter)

/-- An UNVOICED record pulled (R233). -/
def takeUnvoiced (cfg : Config) (e : Int) (k : Vector Int 4) (s : State pw lw) : State pw lw :=
  applyUnvoiced cfg (energyIndex e) (kIndices k)
    (s.raiseIf (decide (energyIndex e ≠ e) || decide (kIndices k ≠ k)) .invalidFrameParameter)

/-- A VOICED record pulled (R233); the tag decides the kind, whatever the indices. -/
def takeVoiced (cfg : Config) (e p : Int) (k : Vector Int 10) (s : State pw lw) : State pw lw :=
  applyVoiced cfg (energyIndex e) (pitchIndex p) (kIndices k)
    (s.raiseIf (decide (energyIndex e ≠ e) || decide (pitchIndex p ≠ p) || decide (kIndices k ≠ k)) .invalidFrameParameter)

/-- A value frame pulled (R234): values clamped to the registers' legal ranges, no table read. -/
def takeValues (e p : Int) (k : Vector Int 10) (s : State pw lw) : State pw lw :=
  (s.setTgt (targets (toParam (energyValue e)) (toParam (pitchValue p)) fun i => toParam (kValues k)[i])).raiseIf
    (decide (energyValue e ≠ e) || decide (pitchValue p ≠ p) || decide (kValues k ≠ k)) .invalidFrameParameter

/-- `Apply(f)` and `ApplyQueued(f)` (R230, R232): a record from the bitstream has its indices in range, so no clamp acts on
it and the two are one operation (DEDUCED from R95 and R263, log 16). -/
def takeRecord (cfg : Config) : FrameRecord → State pw lw → State pw lw
  | .stop, s => applyStop s
  | .silence, s => applySilence s
  | .repeatFrame e p, s => takeRepeat cfg e p s
  | .unvoiced e k, s => takeUnvoiced cfg e k s
  | .voiced e p k, s => takeVoiced cfg e p k s
  | .values e p k, s => takeValues e p k s

/-- The decoded integer values of a record at the boundary, "those the Apply rules would write" (40_frame_decoder.md R129):
twelve for VOICED and UNVOICED, two for REPEAT, none for SILENCE and STOP. R129 speaks of decoded records, whose indices are in
range. For a queue record the operands are clamped first, as they are when it is pulled (R233, R234), and a value frame gives
its twelve clamped values (DESIGN CHOICE, log 24, safe). -/
def decodedValues (cfg : Config) : FrameRecord → List Int
  | .stop => []
  | .silence => []
  | .repeatFrame e p => [cfg.energyTable (energyIndex e).toNat, cfg.pitchTable (pitchIndex p).toNat]
  | .unvoiced e k =>
    [cfg.energyTable (energyIndex e).toNat, cfg.pitchTable 0] ++
      (List.ofFn fun i : Fin 4 => cfg.kTable i.val (kIndices k)[i].toNat) ++ List.replicate 6 0
  | .voiced e p k =>
    [cfg.energyTable (energyIndex e).toNat, cfg.pitchTable (pitchIndex p).toNat] ++
      List.ofFn fun i : Fin 10 => cfg.kTable i.val (kIndices k)[i].toNat
  | .values e p k => [energyValue e, pitchValue p] ++ (kValues k).toList

/-- STOP. -/
def execStop (s : State) : Answer := .next (applyStop s)

/-- SILENCE. -/
def execSilence (s : State) : Answer := .next (applySilence s)

/-- REPEAT. -/
def execRepeatFrame (e p : Int) (s : State) : Answer := .next (takeRepeat hw e p s)

/-- UNVOICED. -/
def execUnvoiced (e : Int) (k : Vector Int 4) (s : State) : Answer := .next (takeUnvoiced hw e k s)

/-- VOICED. -/
def execVoiced (e p : Int) (k : Vector Int 10) (s : State) : Answer := .next (takeVoiced hw e p k s)

/-- VALUES. -/
def execValues (e p : Int) (k : Vector Int 10) (s : State) : Answer := .next (takeValues e p k s)

end Sys2Proof.Machine
end

