-- ==== Sys2Proof/Machine/Interpolator.lean ====
section
/-! DEFINITION. The parameter interpolator, pipeline step 1 (41_interpolator.md): it reads `cur`, `tgt` and
`interp_period` and writes nothing. -/

namespace Sys2Proof.Machine

variable {pw lw : Nat}

/-- `Interp(c, t, s)` (R151). -/
def interp (c t : Int) (s : Nat) : Int := if s = 0 then t else c + asr (t - c) s

/-- `ShiftOf(p) = Rom(SHIFT, (p + INTERP_PHASE) mod 8)` (R153). -/
def shiftOf (cfg : Config) (p : Nat) : Nat := shiftTable.getD ((p + cfg.interpPhase) % 8) 0

/-- INTERPOLATE (R152): the twelve effective values of this sample. -/
def interpolate (cfg : Config) (s : State pw lw) : Vector Int 12 :=
  Vector.ofFn fun j : Fin 12 => interp s.cur[j].toInt s.tgt[j].toInt (shiftOf cfg s.interpPeriod.toNat)

end Sys2Proof.Machine
end

