-- ==== Sys2Proof/Machine/Lattice.lean ====
section
/-! DEFINITION. The ten-stage lattice filter and the output path, pipeline steps 3 and 4 (43_lattice.md). -/

namespace Sys2Proof.Machine

variable {lw : Nat}

/-- `U0 <- (exc × eff_energy) << LAT_FRAC` (R191). -/
def driveValue (cfg : Config) (exc effEnergy : Int) : Int := exc * effEnergy * 2 ^ cfg.latFrac

/-- `LAT_MIN` for `LAT_W = lw` (R190). -/
def latMin (lw : Nat) : Int := -(2 ^ (lw - 1))

/-- `LAT_MAX` for `LAT_W = lw` (R190). -/
def latMax (lw : Nat) : Int := 2 ^ (lw - 1) - 1

/-- `Fit(X)` (R194): the value if it lies in `LAT_MIN..LAT_MAX`. -/
def fit (lw : Nat) (x : Int) : Option Int := if latMin lw ≤ x ∧ x ≤ latMax lw then some x else none

/-- One stage with coefficient `k`, delay element `dv` and input `u` (R193): the stage output and the new delay element,
the delay update using the fresh output. -/
def latticeStage (cfg : Config) (lw : Nat) (k dv u : Int) : Option (Int × Int) :=
  match fit lw (u - cfg.kMul k dv) with
  | none => none
  | some out =>
    match fit lw (dv + cfg.kMul k out) with
    | none => none
    | some dv' => some (out, dv')

/-- Stages `n` down to 1 (R193): the delay line and the output, or the index of the stage that does not fit. -/
def latticeStages (cfg : Config) (k : Vector Int 10) : (n : Nat) → n ≤ 10 → Vector (BitVec lw) 11 → Int → Except Nat (Vector (BitVec lw) 11 × Int)
  | 0, _, d, u => .ok (d, u)
  | n + 1, h, d, u =>
    match latticeStage cfg lw k[n] d[n].toInt u with
    | none => .error n
    | some (out, dv) => latticeStages cfg k n (Nat.le_of_succ_le h) (d.set n (BitVec.ofInt lw dv)) out

/-- The shift toward higher indices and `d[0] <- U` (R193); `d[10]` is not touched (10_state.md R31). -/
def shiftDelay (d : Vector (BitVec lw) 11) (u : Int) : Vector (BitVec lw) 11 :=
  #v[BitVec.ofInt lw u, d[0], d[1], d[2], d[3], d[4], d[5], d[6], d[7], d[8], d[10]]

/-- LATTICE (R193): the new delay line and the stage-1 output `U`. -/
def lattice (cfg : Config) (k : Vector Int 10) (d : Vector (BitVec lw) 11) (u0 : Int) : Except Nat (Vector (BitVec lw) 11 × Int) :=
  match latticeStages cfg k 10 (Nat.le_refl 10) d u0 with
  | .error i => .error i
  | .ok (d', u) => .ok (shiftDelay d' u, u)

/-- ROUND-CLAMP (R195): nearest integer, ties toward plus infinity, clamped to 14 bits. The rounding addend
`2^(LAT_FRAC - 1)` is written as half of `2^LAT_FRAC`; with `LAT_FRAC = 0`, of which the spec says nothing, it is 0 and the
integer `U` is not rounded (DESIGN CHOICE, log 23, safe: `hw` has `LAT_FRAC = 16`). -/
def roundClamp (cfg : Config) (u : Int) : Int := clamp (asr (u + 2 ^ cfg.latFrac / 2) cfg.latFrac) (-8192) 8191

/-- SCALE (R196). -/
def scale (y14 : Int) : Int := clamp (4 * y14) (-32768) 32767

/-- The K values of the twelve effective values, `eff_k[i] = eff[2 + i]` (41_interpolator.md R152). -/
def effK (eff : Vector Int 12) : Vector Int 10 :=
  #v[eff[2], eff[3], eff[4], eff[5], eff[6], eff[7], eff[8], eff[9], eff[10], eff[11]]

end Sys2Proof.Machine
end

