-- ==== Sys2Proof/Machine/Engine.lean ====
section
/-! DEFINITION. The synthesis engine (44_engine.md): pulling frames, the per-sample pipeline, the counters, and the meanings
of RESET, LOAD, LOAD_FRAMES, STEP and STATUS. -/

namespace Sys2Proof.Machine

variable {pw lw : Nat}

/-- `PullBits()` (R230). -/
def pullBits (cfg : Config) (s : State pw lw) : State pw lw :=
  match decodeFrame s.bs s.bsLen s.bitpos with
  | .ended => s.stopSpeaking
  | .malformed => (s.raise .malformedBitstream).stopSpeaking
  | .frame f next => takeRecord cfg f (s.setBitpos next)

/-- `PullQueue()` (R232): the next record; once the queue is exhausted one frame of decay, then the end of speaking. -/
def pullQueue (cfg : Config) (s : State pw lw) : State pw lw :=
  match s.fq[s.fqIndex]? with
  | some f => takeRecord cfg f (s.setFqIndex (s.fqIndex + 1))
  | none => if s.decayAppended then s.stopSpeaking else applySilence s.markDecay

/-- `Pull()` (R229). -/
def pull (cfg : Config) (s : State pw lw) : State pw lw :=
  match s.mode with
  | .none => s
  | .bitstream => pullBits cfg s
  | .frames => pullQueue cfg s

/-- `AdvanceCounters()` (R227): the comparisons are made on the incremented values. -/
def advanceCounters (cfg : Config) (s : State pw lw) : State pw lw :=
  if s.sampleInPeriod.toNat + 1 = samplesPerPeriod then
    if s.interpPeriod.toNat + 1 = periodsPerFrame then pull cfg (s.setCounters 0 0).promote
    else s.setCounters (s.interpPeriod.toNat + 1) 0
  else s.setCounters s.interpPeriod.toNat (s.sampleInPeriod.toNat + 1)

/-- `Pipeline()` (R225): the PCM value and the state with the excitation registers and the delay line written, or the index
of the stage that overflows. -/
def pipeline (cfg : Config) (s : State pw lw) : Except Nat (Int × State pw lw) :=
  match lattice cfg (effK (interpolate cfg s)) s.d
      (driveValue cfg (exciteSample cfg (interpolate cfg s)[1] s) (interpolate cfg s)[0]) with
  | .error i => .error i
  | .ok (d', u) => .ok (scale (roundClamp cfg u), (exciteState cfg (interpolate cfg s)[1] s).setDelay d')

/-- A command the core accepts only after the first RESET (R292, R246). -/
def afterReset (s : State pw lw) (answer : Answer pw lw) : Answer pw lw := if s.isReset then answer else .refused .beforeReset

/-- STEP on a configuration (R224, R226). -/
def stepSample (cfg : Config) (s : State pw lw) : Answer pw lw :=
  if s.speaking then
    match pipeline cfg s with
    | .error i => .fault (.latticeOverflow i (s.raise .latticeOverflow).err)
    | .ok (v, s') => .next ((advanceCounters cfg s').pcmWrite v)
  else .next (s.pcmWrite 0)

/-- LOAD on a configuration (R222, R236). -/
def loadBits (cfg : Config) (bytes : List Byte) (s : State pw lw) : Answer pw lw :=
  if s.speaking then .refused .loadWhileSpeaking else .next (pull cfg (s.installBits bytes))

/-- LOAD_FRAMES on a configuration (R223, R236). -/
def loadQueue (cfg : Config) (frames : List FrameRecord) (s : State pw lw) : Answer pw lw :=
  if s.speaking then .refused .loadWhileSpeaking else .next (pull cfg (s.installFrames frames))

/-- RESET (R221, R290): every piece of the engine's state takes its reset value; what the host holds (samples received, the
last report, its queue) is not the engine's and stays (log 3). -/
def resetEngine (s : State pw lw) : Answer pw lw :=
  .next { State.resetOf pw lw with pcm := s.pcm, statusOut := s.statusOut, hostCmds := s.hostCmds }

/-- RESET. -/
def execReset (s : State) : Answer := resetEngine s

/-- LOAD. -/
def execLoad (bytes : List Byte) (s : State) : Answer := afterReset s (loadBits hw bytes s)

/-- LOAD_FRAMES. -/
def execLoadFrames (frames : List FrameRecord) (s : State) : Answer := afterReset s (loadQueue hw frames s)

/-- STEP. -/
def execStep (s : State) : Answer := afterReset s (stepSample hw s)

/-- STATUS (R235): the flags as they stand; no side effect on the engine. -/
def execStatus (s : State) : Answer := afterReset s (.next (s.setStatusOut (s.report hw)))

end Sys2Proof.Machine
end

