-- ==== Sys2Proof/Machine/Dispatch.lean ====
section
/-! DEFINITION. The meaning of every instruction, one arm each. -/

namespace Sys2Proof.Machine

open Sys2Proof

def exec (i : Instr) (s : State) : Host.Outcome State Fault Refusal :=
  match i with
  | .stop => Sys2Proof.Machine.execStop s
  | .silence => Sys2Proof.Machine.execSilence s
  | .repeatFrame e p => Sys2Proof.Machine.execRepeatFrame e p s
  | .unvoiced e k => Sys2Proof.Machine.execUnvoiced e k s
  | .voiced e p k => Sys2Proof.Machine.execVoiced e p k s
  | .values e p k => Sys2Proof.Machine.execValues e p k s
  | .reset => Sys2Proof.Machine.execReset s
  | .load bytes => Sys2Proof.Machine.execLoad bytes s
  | .loadFrames frames => Sys2Proof.Machine.execLoadFrames frames s
  | .step => Sys2Proof.Machine.execStep s
  | .status => Sys2Proof.Machine.execStatus s

end Sys2Proof.Machine
end

