-- ==== Sys2Proof/Machine/Step.lean ====
section
/-! DEFINITION. One step of the machine: the host's next command, executed to its end (00_scope.md R14, 44_engine.md R220). -/

namespace Sys2Proof.Machine

/-- The next command is taken from the host's queue (STEP when nothing is queued) and executed. A LOAD, and a STEP that ends
a frame, fetch the next frame at `bitpos` and execute it (`pull`). -/
def step (s : State) : Host.Outcome State Fault Refusal := exec s.nextCommand.toInstr s.dropCommand

/-- `s` with the instruction of `nbits` bits `w` placed where the next step fetches it: the host's next command is a LOAD of
its bytes, which fetches the frame at bit 0 and executes it (log 2). -/
def State.withFetchWord (s : State) (nbits w : Nat) : State := s.queueLoad (tableBytes nbits w)

end Sys2Proof.Machine
end

