-- ==== Sys2Proof/Machine/Render.lean ====
section
/-! DEFINITION. The host procedures RENDER and RENDER_FRAMES (44_engine.md R240, R241; log 14), made of the commands. -/

namespace Sys2Proof.Machine

variable {pw lw : Nat}

/-- The loop of RENDER with `room` samples left under the cap (R240): STEP while speaking; at the cap, OverlongSpeech if
still speaking (60_exceptions.md R262). -/
def renderLoop (cfg : Config) : Nat → State pw lw → Answer pw lw
  | 0, s => .next (s.raiseIf s.speaking .overlongSpeech)
  | room + 1, s => if s.speaking then andThen (afterReset s (stepSample cfg s)) (renderLoop cfg room) else .next s

/-- A rendering: RESET, the given load, then the loop; a cap below 1 is refused (U12). -/
def renderWith (cfg : Config) (load : State pw lw → Answer pw lw) (cap : Int) (s : State pw lw) : Answer pw lw :=
  if cap < 1 then .refused .capBelowOne
  else andThen (resetEngine s) fun s1 => andThen (load s1) (renderLoop cfg cap.toNat)

/-- `RENDER(bs, cap)` on a configuration (R240). -/
def renderOn (cfg : Config) (bytes : List Byte) (cap : Int) (s : State cfg.paramW cfg.latW) :
    Answer cfg.paramW cfg.latW :=
  renderWith cfg (fun s1 => afterReset s1 (loadBits cfg bytes s1)) cap s

/-- `RENDER_FRAMES(fq, cap)` on a configuration (R241). -/
def renderFramesOn (cfg : Config) (frames : List FrameRecord) (cap : Int) (s : State cfg.paramW cfg.latW) :
    Answer cfg.paramW cfg.latW :=
  renderWith cfg (fun s1 => afterReset s1 (loadQueue cfg frames s1)) cap s

/-- RENDER with no cap given, on a configuration: the cap is its `CAP` (R7, R240, D28). -/
def renderDefaultOn (cfg : Config) (bytes : List Byte) (s : State cfg.paramW cfg.latW) : Answer cfg.paramW cfg.latW :=
  renderOn cfg bytes cfg.cap s

/-- RENDER_FRAMES with no cap given, on a configuration: the cap is its `CAP` (R7, R241, D28). -/
def renderFramesDefaultOn (cfg : Config) (frames : List FrameRecord) (s : State cfg.paramW cfg.latW) :
    Answer cfg.paramW cfg.latW :=
  renderFramesOn cfg frames cfg.cap s

/-- `RENDER(bs, cap)` on this machine. -/
def render (bytes : List Byte) (cap : Int) (s : State) : Answer := renderOn hw bytes cap s

/-- `RENDER_FRAMES(fq, cap)` on this machine. -/
def renderFrames (frames : List FrameRecord) (cap : Int) (s : State) : Answer := renderFramesOn hw frames cap s

/-- `RENDER(bs)` on this machine, no cap given. -/
def renderDefault (bytes : List Byte) (s : State) : Answer := renderDefaultOn hw bytes s

/-- `RENDER_FRAMES(fq)` on this machine, no cap given. -/
def renderFramesDefault (frames : List FrameRecord) (s : State) : Answer := renderFramesDefaultOn hw frames s

/-- The samples a rendering from `s` to `t` returned: what the output stream gained. -/
def samplesSince (s t : State pw lw) : List Sample := t.pcm.drop s.pcm.length

end Sys2Proof.Machine
end

