-- ==== Sys2Proof/Safety.lean ====
section
/-! DEFINITION. What claims are stated in: the legal ranges of 10_state.md, the invariant of reachable states, the lattice
equations of 43_lattice.md R197, and runs of STEPs. -/

namespace Sys2Proof.Machine

/-- The legal values of a bank of parameter registers (10_state.md R21). -/
def LegalParams (v : Vector Param 12) : Prop :=
  (0 ≤ v[0].toInt ∧ v[0].toInt ≤ 114) ∧ (0 ≤ v[1].toInt ∧ v[1].toInt ≤ 159) ∧
    ∀ i : Fin 10, -512 ≤ v[2 + i.val].toInt ∧ v[2 + i.val].toInt ≤ 512

/-- What holds of the state between commands (10_state.md R21 to R31; 44_engine.md R243). -/
structure State.Inv (s : State) : Prop where
  /-- R21 -/
  curLegal : LegalParams s.cur
  /-- R21 -/
  tgtLegal : LegalParams s.tgt
  /-- R27: `sample_in_period` in 0..24 -/
  sampleLegal : s.sampleInPeriod.toNat < 25
  /-- R28: `pitch_cursor` in 0..158 -/
  cursorLegal : s.pitchCursor.toNat ≤ 158
  /-- R29, R177: the LFSR is never 0 -/
  noiseLegal : s.noiseRegister ≠ 0#17
  /-- R31: `d[10]` holds 0 -/
  lastDelay : s.d[10] = 0#40
  /-- R23: `0 ≤ bitpos ≤ 8 × BS_LEN` -/
  cursorInStream : s.bitpos ≤ 8 * s.bsLen
  /-- The buffer's cells are in canonical form. -/
  memCanonical : s.bs.wf = true
  /-- The buffer has no byte at or past `BS_LEN`. -/
  memInside : s.bs.within s.bsLen = true
  /-- R24: `0 ≤ fq_index ≤ FQ_LEN` -/
  queueCursor : s.fqIndex ≤ s.fq.length
  /-- R232: the decay is appended only once the queue is exhausted. -/
  decayLast : s.decayAppended = true → s.fqIndex = s.fq.length
  /-- R243: both counters are 0 while not speaking. -/
  idleCounters : s.speaking = false → s.interpPeriod = 0#3 ∧ s.sampleInPeriod = 0#5
  /-- R25: a speaking engine has a source. -/
  hasSource : s.speaking = true → s.mode ≠ .none
  /-- R38: `BS` is empty unless the source is a bitstream. -/
  onlyBits : s.mode ≠ .bitstream → s.bs = [] ∧ s.bsLen = 0 ∧ s.bitpos = 0
  /-- R38: `FQ` is empty unless the source is a frame queue. -/
  onlyQueue : s.mode ≠ .frames → s.fq = [] ∧ s.fqIndex = 0 ∧ s.decayAppended = false

/-- The value passed on after `n` stages, `f_(10-n)` of 43_lattice.md R197: `f_10 = U0`,
`f_i = f_(i+1) - (k_i / 512) × d[i]`, each product rounded down (R192). -/
def stageOut (k : Vector Int 10) (d : Vector Delay 11) (u0 : Int) : Nat → Int
  | 0 => u0
  | n + 1 => if h : n < 10 then stageOut k d u0 n - k[9 - n] * d[9 - n].toInt / 512 else stageOut k d u0 n

/-- The delay element stage `i + 1` computes, `b_(i+1) = d[i] + (k_i / 512) × f_i` (R197). -/
def stageDelay (k : Vector Int 10) (d : Vector Delay 11) (u0 : Int) (i : Nat) (h : i < 10) : Int :=
  d[i].toInt + k[i] * stageOut k d u0 (10 - i) / 512

/-- A lattice value fits its 40 bits (R190, R194). -/
def FitsDelay (x : Int) : Prop := -(2 ^ 39) ≤ x ∧ x ≤ 2 ^ 39 - 1

/-- Neither value of stage `i + 1` overflows (R194). -/
def StageFits (k : Vector Int 10) (d : Vector Delay 11) (u0 : Int) (i : Nat) (h : i < 10) : Prop :=
  FitsDelay (stageOut k d u0 (10 - i)) ∧ FitsDelay (stageDelay k d u0 i h)

/-- No value that is stored or passed on overflows (R194). -/
def LatticeFits (k : Vector Int 10) (d : Vector Delay 11) (u0 : Int) : Prop :=
  ∀ (i : Nat) (h : i < 10), StageFits k d u0 i h

/-- The driving value of the sample STEP would compute (44_engine.md R225). -/
def driveOf (s : State) : Int :=
  exciteSample hw (interpolate hw s)[1] s * (interpolate hw s)[0] * 65536

/-- The sample STEP would compute overflows nowhere (R194). -/
def SampleFits (s : State) : Prop := LatticeFits (effK (interpolate hw s)) s.d (driveOf s)

/-- The stage-1 output `U` of the sample STEP would compute. -/
def sampleU (s : State) : Int := stageOut (effK (interpolate hw s)) s.d (driveOf s) 10

/-- The sample STEP would compute is the last of its frame: the counters stand at 7 and 24 (44_engine.md R227). -/
def AtFrameEnd (s : State) : Prop := s.interpPeriod.toNat = 7 ∧ s.sampleInPeriod.toNat = 24

/-- `n` STEPs one after another (44_engine.md R242). -/
def stepTimes : Nat → State → Answer
  | 0, s => .next s
  | n + 1, s => andThen (execStep s) (stepTimes n)

/-- The whole stream read as one little-endian integer, `S` of 20_memory.md R64. -/
def streamNat : List Byte → Nat
  | [] => 0
  | b :: rest => b.toNat + 256 * streamNat rest

end Sys2Proof.Machine
end

