-- ==== Sys2Proof/Certificates/Slice0/Obligations.lean ====
section
/-! DEFINITION. The statements for the provers, from the numbered rules of spec/. Each docstring names what it formalises. -/

open Sys2Proof Sys2Proof.Machine

/-! ### Reset -/

/-- R290, R40: the value of every item of the engine's state right after RESET, and the flags that follow from them. -/
def Obligations.ResetLeavesTheSpecValues : Prop :=
  (∀ j : Fin 12, State.reset.cur[j] = 0#11 ∧ State.reset.tgt[j] = 0#11) ∧ State.reset.interpPeriod = 0#3 ∧
  State.reset.sampleInPeriod = 0#5 ∧ State.reset.pitchCursor = 0#8 ∧ State.reset.noiseRegister = 0x1FFFF#17 ∧
  (∀ i : Fin 11, State.reset.d[i] = 0#40) ∧ State.reset.speaking = false ∧ State.reset.err = 0#4 ∧
  State.reset.mode = .none ∧ State.reset.bs = [] ∧ State.reset.bsLen = 0 ∧ State.reset.bitpos = 0 ∧
  State.reset.fq = [] ∧ State.reset.fqIndex = 0 ∧ State.reset.decayAppended = false ∧
  State.reset.talkStatus = false ∧ State.reset.bufferEmpty = true ∧ State.reset.bufferLow hw = true

/-- R221, R290: RESET restores the whole engine from any state; the model's choice (log 3): the samples, the report and the
queue on the host's side stay. -/
def Obligations.ResetCommandRestoresEngine : Prop :=
  ∀ s : State, exec .reset s =
    .next { State.reset with pcm := s.pcm, statusOut := s.statusOut, hostCmds := s.hostCmds }

/-- R292, R246, U1: before the first RESET every command but RESET is refused (the spec's decision D19; log 4). -/
def Obligations.CommandsBeforeResetRefused : Prop :=
  ∀ s : State, s.isReset = false →
    exec .step s = .refused .beforeReset ∧ exec .status s = .refused .beforeReset ∧
    (∀ l, exec (.load l) s = .refused .beforeReset) ∧ (∀ l, exec (.loadFrames l) s = .refused .beforeReset) ∧
    ∃ t, exec .reset s = .next t ∧ t.isReset = true

/-! ### Frames -/

/-- R122: STOP ends speaking and changes nothing else. -/
def Obligations.StopEndsSpeakingOnly : Prop :=
  ∀ s : State, exec .stop s = .next { s with speaking := false }

/-- R123: SILENCE zeroes all twelve targets and both counters and changes nothing else. -/
def Obligations.SilenceZeroesTargetsAndCounters : Prop :=
  ∀ s : State, ∃ t, exec .silence s = .next t ∧ (∀ j : Fin 12, t.tgt[j] = 0#11) ∧
    t = { s with tgt := t.tgt, interpPeriod := 0#3, sampleInPeriod := 0#5 }

/-- R124, R121: REPEAT writes the energy and pitch targets from the tables, keeps the ten K targets, and changes nothing
else (operands in range: energy index 0..15 as the table has, pitch 0..63). -/
def Obligations.RepeatSetsEnergyAndPitch : Prop :=
  ∀ (e p : Int) (s : State), 0 ≤ e → e ≤ 15 → 0 ≤ p → p ≤ 63 →
    ∃ t, exec (.repeatFrame e p) s = .next t ∧ t.tgt[0].toInt = hw.energyTable e.toNat ∧
      t.tgt[1].toInt = hw.pitchTable p.toNat ∧ (∀ i : Fin 10, t.tgt[2 + i.val] = s.tgt[2 + i.val]) ∧
      t = { s with tgt := t.tgt }

/-- R125, R121: UNVOICED writes energy and K1..K4 from the tables, pitch 0, K5..K10 the value 0, and nothing else. -/
def Obligations.UnvoicedSetsTargets : Prop :=
  ∀ (e : Int) (k : Vector Int 4) (s : State), 0 ≤ e → e ≤ 15 → kIndicesOk k = true →
    ∃ t, exec (.unvoiced e k) s = .next t ∧ t.tgt[0].toInt = hw.energyTable e.toNat ∧ t.tgt[1].toInt = 0 ∧
      (∀ i : Fin 4, t.tgt[2 + i.val].toInt = hw.kTable i.val k[i].toNat) ∧
      (∀ i : Fin 6, t.tgt[6 + i.val].toInt = 0) ∧ t = { s with tgt := t.tgt }

/-- R126, R121: VOICED writes all twelve targets from the tables, and nothing else. -/
def Obligations.VoicedSetsTargets : Prop :=
  ∀ (e p : Int) (k : Vector Int 10) (s : State), 0 ≤ e → e ≤ 15 → 0 ≤ p → p ≤ 63 → kIndicesOk k = true →
    ∃ t, exec (.voiced e p k) s = .next t ∧ t.tgt[0].toInt = hw.energyTable e.toNat ∧
      t.tgt[1].toInt = hw.pitchTable p.toNat ∧
      (∀ i : Fin 10, t.tgt[2 + i.val].toInt = hw.kTable i.val k[i].toNat) ∧ t = { s with tgt := t.tgt }

/-- R234: a value frame, on every operand: values clamped to 0..114, 0..159 and -512..512, InvalidFrameParameter (bit 2 of
`err`) exactly when a clamp changed one, nothing else written. -/
def Obligations.ValuesClampsAndRaises : Prop :=
  ∀ (e p : Int) (k : Vector Int 10) (s : State),
    ∃ t, exec (.values e p k) s = .next t ∧ t.tgt[0].toInt = max 0 (min e 114) ∧ t.tgt[1].toInt = max 0 (min p 159) ∧
      (∀ i : Fin 10, t.tgt[2 + i.val].toInt = max (-512) (min k[i] 512)) ∧
      (t.err = if (0 ≤ e ∧ e ≤ 114) ∧ (0 ≤ p ∧ p ≤ 159) ∧ (∀ i : Fin 10, -512 ≤ k[i] ∧ k[i] ≤ 512) then s.err
        else s.err ||| 4#4) ∧
      t = { s with tgt := t.tgt, err := t.err }

/-- R233, R263: an index record with an operand out of range is applied as the record of its tag with every index clamped,
with bit 2 of `err` set. -/
def Obligations.OutOfRangeIndicesClamped : Prop :=
  (∀ (e p : Int) (s : State), ¬((0 ≤ e ∧ e ≤ 15) ∧ (0 ≤ p ∧ p ≤ 63)) →
    exec (.repeatFrame e p) s =
      exec (.repeatFrame (max 0 (min e 15)) (max 0 (min p 63))) { s with err := s.err ||| 4#4 }) ∧
  (∀ (e : Int) (k k' : Vector Int 4) (s : State), ¬((0 ≤ e ∧ e ≤ 15) ∧ kIndicesOk k = true) →
    (∀ i : Fin 4, k'[i] = max 0 (min k[i] ((kCard i.val : Int) - 1))) →
    exec (.unvoiced e k) s = exec (.unvoiced (max 0 (min e 15)) k') { s with err := s.err ||| 4#4 }) ∧
  (∀ (e p : Int) (k k' : Vector Int 10) (s : State),
    ¬((0 ≤ e ∧ e ≤ 15) ∧ (0 ≤ p ∧ p ≤ 63) ∧ kIndicesOk k = true) →
    (∀ i : Fin 10, k'[i] = max 0 (min k[i] ((kCard i.val : Int) - 1))) →
    exec (.voiced e p k) s =
      exec (.voiced (max 0 (min e 15)) (max 0 (min p 63)) k') { s with err := s.err ||| 4#4 })

/-- R121 to R126, R233, R234: every frame instruction completes from every state, on all operands, and this is what it
leaves unchanged. -/
def Obligations.FrameInstructionsFrame : Prop :=
  ∀ (f : FrameRecord) (s : State), ∃ t, exec f.toInstr s = .next t ∧
    t.cur = s.cur ∧ t.pitchCursor = s.pitchCursor ∧ t.noiseRegister = s.noiseRegister ∧ t.d = s.d ∧ t.mode = s.mode ∧
    t.bitpos = s.bitpos ∧ t.bsLen = s.bsLen ∧ (∀ a, t.bs.read a = s.bs.read a) ∧ t.fq = s.fq ∧ t.fqIndex = s.fqIndex ∧
    t.decayAppended = s.decayAppended ∧ t.isReset = s.isReset ∧ t.pcm = s.pcm ∧ t.statusOut = s.statusOut ∧
    t.hostCmds = s.hostCmds ∧ (f ≠ .stop → t.speaking = s.speaking) ∧ (f = .stop → t.tgt = s.tgt) ∧
    (f ≠ .silence → t.interpPeriod = s.interpPeriod ∧ t.sampleInPeriod = s.sampleInPeriod) ∧
    (t.err = s.err ∨ t.err = s.err ||| 4#4) ∧ (f.wf = true → t.err = s.err)

/-! ### Encoding -/

/-- R91, R94: words written out from the encodings decode to the instructions they stand for. -/
def Obligations.KnownWordsDecode : Prop :=
  decodeTableWord 8 0xF = some .stop ∧ decodeTableWord 8 0x0 = some .silence ∧
  decodeTableWord 16 (6 + 1 * 2 ^ 4 + 20 * 2 ^ 5) = some (.repeatFrame 6 20) ∧
  decodeTableWord 32 (7 + 24 * 2 ^ 11 + 10 * 2 ^ 16 + 8 * 2 ^ 21 + 6 * 2 ^ 25) = some (.unvoiced 7 #v[24, 10, 8, 6]) ∧
  decodeTableWord 56 0x24911111083C8 = some (.voiced 8 30 #v[16, 16, 8, 8, 8, 8, 8, 4, 4, 4])

/-- R100, R101, R120: every frame that can be encoded has an encoding, and wherever those bits stand in a stream, at any bit
address, the decoder gives back that frame and the address after it. -/
def Obligations.EncodedFrameDecodes : Prop :=
  (∀ f : FrameRecord, f.encodable = true → ∃ bits, encode f.toInstr = some bits) ∧
  ∀ (i : Instr) (bits : List Bool), encode i = some bits →
    ∀ (m : Memory) (len pos : Nat), pos + bits.length ≤ 8 * len →
      (∀ (j : Nat) (h : j < bits.length), m.bit (pos + j) = bits[j]) →
      ∃ f, i.frame? = some f ∧ decodeFrame m len pos = .frame f (pos + bits.length)

/-- R95, R120: whatever frame the decoder reads can be encoded, and its encoding is exactly the bits that were read. -/
def Obligations.DecodedFrameReencodes : Prop :=
  ∀ (m : Memory) (len pos next : Nat) (f : FrameRecord), decodeFrame m len pos = .frame f next →
    ∃ bits, encode f.toInstr = some bits ∧ next = pos + bits.length ∧ next ≤ 8 * len ∧
      ∀ (j : Nat) (h : j < bits.length), bits[j] = m.bit (pos + j)

/-- R92: how the decoder tells the kind and the length, in the order of its tests, wherever the frame's bits are in the
stream. -/
def Obligations.DecoderTellsKindAndLength : Prop :=
  ∀ (m : Memory) (len pos : Nat),
    (pos + 4 ≤ 8 * len → m.readBits pos 4 = 15 → decodeFrame m len pos = .frame .stop (pos + 4)) ∧
    (pos + 4 ≤ 8 * len → m.readBits pos 4 = 0 → decodeFrame m len pos = .frame .silence (pos + 4)) ∧
    (pos + 11 ≤ 8 * len → m.readBits pos 4 ≠ 15 → m.readBits pos 4 ≠ 0 → m.bit (pos + 4) = true →
      decodeFrame m len pos = .frame (.repeatFrame (m.readBits pos 4) (m.readBits (pos + 5) 6)) (pos + 11)) ∧
    (pos + 29 ≤ 8 * len → m.readBits pos 4 ≠ 15 → m.readBits pos 4 ≠ 0 → m.bit (pos + 4) = false →
      m.readBits (pos + 5) 6 = 0 →
      decodeFrame m len pos = .frame (.unvoiced (m.readBits pos 4) #v[(m.readBits (pos + 11) 5 : Int),
        m.readBits (pos + 16) 5, m.readBits (pos + 21) 4, m.readBits (pos + 25) 4]) (pos + 29)) ∧
    (pos + 50 ≤ 8 * len → m.readBits pos 4 ≠ 15 → m.readBits pos 4 ≠ 0 → m.bit (pos + 4) = false →
      m.readBits (pos + 5) 6 ≠ 0 →
      decodeFrame m len pos = .frame (.voiced (m.readBits pos 4) (m.readBits (pos + 5) 6)
        #v[(m.readBits (pos + 11) 5 : Int), m.readBits (pos + 16) 5, m.readBits (pos + 21) 4, m.readBits (pos + 25) 4,
          m.readBits (pos + 29) 4, m.readBits (pos + 33) 4, m.readBits (pos + 37) 4, m.readBits (pos + 41) 3,
          m.readBits (pos + 44) 3, m.readBits (pos + 47) 3]) (pos + 50))

/-- R127: the clean end is exactly no bit left; a stream is malformed at `pos` exactly when some bit is left but the frame
the bits begin, read on past the end, would not fit; a frame that fits is decoded as if the stream went on. R127 speaks of
`pos ≤ 8 * len`; that a `pos` past the stream counts as no bit left, and is answered `ended`, is the model's choice, log 10. -/
def Obligations.EndAndMalformedTold : Prop :=
  ∀ (m : Memory) (len pos : Nat),
    (decodeFrame m len pos = .ended ↔ 8 * len ≤ pos) ∧
    (decodeFrame m len pos = .malformed ↔
      pos < 8 * len ∧ ∃ f next, decodeFrame m (len + 7) pos = .frame f next ∧ 8 * len < next) ∧
    ∀ f next, decodeFrame m len pos = .frame f next ↔
      pos < 8 * len ∧ decodeFrame m (len + 7) pos = .frame f next ∧ next ≤ 8 * len

/-- R101: `decode(encode(F)) = F` modulo the appended STOP, for a list of well-formed frames with no STOP before its end. -/
def Obligations.StreamRoundTrip : Prop :=
  ∀ F : List FrameRecord, (∀ f ∈ F, f.encodable = true) → FrameRecord.stop ∉ F.dropLast →
    ∃ bytes, encodeStream F = some bytes ∧
      decodeAll bytes = (if F.getLast? = some .stop then F else F ++ [.stop], false)

/-- R99, D33: the encoder refuses a list exactly when one of its records is malformed or has no bits. -/
def Obligations.EncoderRefusesMalformed : Prop :=
  ∀ F : List FrameRecord, encodeStream F = none ↔ ∃ f ∈ F, f.hasBits = false ∨ f.wf = false

/-- R128: `DecodeAll` ends (more rounds change nothing), emits STOP at most as the last frame, and a malformed stream gets a
trailing STOP. -/
def Obligations.DecodeAllEnds : Prop :=
  ∀ bytes : List Byte,
    (∀ extra, decodeFrom (Memory.ofBytes bytes) bytes.length (2 * bytes.length + 1 + extra) 0 = decodeAll bytes) ∧
    FrameRecord.stop ∉ (decodeAll bytes).1.dropLast ∧
    ((decodeAll bytes).2 = true → (decodeAll bytes).1.getLast? = some .stop) ∧
    (decodeAll bytes).1.length ≤ 2 * bytes.length

/-! ### The bitstream space -/

/-- R62: bit `b` is bit `b mod 8` of byte `b div 8`. -/
def Obligations.BitIsLsbFirst : Prop :=
  ∀ (m : Memory) (b : Nat), (m.bit b).toNat = (m.read (b / 8)).toNat >>> (b % 8) &&& 1

/-- R64: a field read is a slice of the stream taken as one little-endian integer. -/
def Obligations.ReadBitsIsStreamSlice : Prop :=
  ∀ (bytes : List Byte) (pos w : Nat), pos + w ≤ 8 * bytes.length →
    (Memory.ofBytes bytes).readBits pos w = streamNat bytes >>> pos &&& (2 ^ w - 1)

/-- R222, R38, R61: LOAD installs the buffer: byte `a` reads as byte `a` of the sequence, the length is its length. -/
def Obligations.LoadInstallsBuffer : Prop :=
  ∀ (bytes : List Byte) (s : State), s.isReset = true → s.speaking = false →
    ∃ t, exec (.load bytes) s = .next t ∧ t.mode = .bitstream ∧ t.bsLen = bytes.length ∧
      (∀ (a : Nat) (h : a < bytes.length), t.bs.read a = bytes[a]) ∧ t.bs.wf = true ∧ t.fq = [] ∧ t.fqIndex = 0 ∧
      t.decayAppended = false

/-! ### Interpolator -/

/-- R153, R154: the shifts of sub-periods 0 to 7 (`INTERP_PHASE = 1` is the spec's decision D1). -/
def Obligations.ShiftSchedule : Prop :=
  (List.range 8).map (shiftOf hw) = [3, 3, 3, 2, 2, 1, 1, 0]

/-- R151, R155: shift 0 snaps to the target; any other shift moves by the difference over `2^s` rounded toward negative
infinity; the value lies between its operands; with both operands in -1024..1023 the difference needs 12 signed bits and
the result fits 11. -/
def Obligations.InterpMovesByFloor : Prop :=
  ∀ (c t : Int) (s : Nat),
    (s = 0 → interp c t s = t) ∧
    (s ≠ 0 → (interp c t s - c) * 2 ^ s ≤ t - c ∧ t - c < (interp c t s - c + 1) * 2 ^ s) ∧
    (min c t ≤ interp c t s ∧ interp c t s ≤ max c t) ∧
    (-1024 ≤ c ∧ c ≤ 1023 → -1024 ≤ t ∧ t ≤ 1023 →
      -2048 ≤ t - c ∧ t - c ≤ 2047 ∧ -1024 ≤ interp c t s ∧ interp c t s ≤ 1023)

/-- R152, R155, R228: the effective values of a legal state are legal, and in sub-period 7 they are the targets
(under the spec's decision D1). -/
def Obligations.EffectiveValuesLegal : Prop :=
  ∀ s : State, LegalParams s.cur → LegalParams s.tgt →
    ((0 : Int) ≤ (interpolate hw s)[0] ∧ (interpolate hw s)[0] ≤ 114) ∧
    ((0 : Int) ≤ (interpolate hw s)[1] ∧ (interpolate hw s)[1] ≤ 159) ∧
    (∀ i : Fin 10, -512 ≤ (interpolate hw s)[2 + i.val] ∧ (interpolate hw s)[2 + i.val] ≤ 512) ∧
    (s.interpPeriod.toNat = 7 → ∀ j : Fin 12, (interpolate hw s)[j] = s.tgt[j].toInt)

/-- R157: over a SILENCE frame an effective energy never increases and ends at 0 (under the spec's decision D1). -/
def Obligations.SilenceEnergyNeverRises : Prop :=
  ∀ c : Int, 0 ≤ c → (∀ p < 7, interp c 0 (shiftOf hw (p + 1)) ≤ interp c 0 (shiftOf hw p)) ∧
    interp c 0 (shiftOf hw 7) = 0

/-! ### Excitation -/

/-- R170 to R176: what a speaking STEP does to the pitch cursor and the noise register, and the sample it excites with:
a voiced sample reads the chirp at the cursor and leaves the LFSR (the spec's decision D5), an unvoiced one updates it. -/
def Obligations.StepAdvancesExcitation : Prop :=
  ∀ s t : State, s.Inv → s.speaking = true → exec .step s = .next t →
    ((0 : Int) < (interpolate hw s)[1] → t.noiseRegister = s.noiseRegister ∧
      exciteSample hw (interpolate hw s)[1] s =
        if s.pitchCursor.toNat < 53 then hw.chirpTable s.pitchCursor.toNat else 0) ∧
    ((interpolate hw s)[1] ≤ 0 →
      t.noiseRegister.toNat =
        s.noiseRegister.toNat / 2 + 65536 * ((s.noiseRegister.toNat + s.noiseRegister.toNat / 8) % 2) ∧
      exciteSample hw (interpolate hw s)[1] s = if t.noiseRegister.toNat % 2 = 1 then 64 else -64) ∧
    (t.pitchCursor.toNat : Int) =
      if (interpolate hw s)[1] ≤ s.pitchCursor.toNat + 1 then 0 else s.pitchCursor.toNat + 1

/-- R177, R29: the LFSR update never leaves a non-zero register at 0, and 0 is a fixed point of it. -/
def Obligations.LfsrNeverReachesZero : Prop :=
  lfsrNext 0#17 = 0#17 ∧ ∀ r : BitVec 17, r ≠ 0#17 → lfsrNext r ≠ 0#17

/-- R177: from the seed the register first returns to the seed after exactly `2^17 - 1` updates. -/
def Obligations.LfsrPeriodIsMaximal : Prop :=
  lfsrNext^[131071] lfsrSeed = lfsrSeed ∧ ∀ n, 0 < n → n < 131071 → lfsrNext^[n] lfsrSeed ≠ lfsrSeed

/-! ### Lattice and output -/

/-- R192: the per-stage product is the exact product over 512 rounded down; its special values; with `|k| ≤ 512` it does not
exceed the operand (R194). The rounding is the spec's decision D6. -/
def Obligations.KMulRoundsDown : Prop :=
  ∀ k x : Int, 512 * hw.kMul k x ≤ k * x ∧ k * x < 512 * hw.kMul k x + 512 ∧ hw.kMul 0 x = 0 ∧ hw.kMul 512 x = x ∧
    hw.kMul (-512) x = -x ∧ hw.kMul 256 x = asr x 1 ∧ hw.kMul k 0 = 0 ∧
    (-512 ≤ k → k ≤ 512 → (hw.kMul k x).natAbs ≤ x.natAbs)

/-- R193, R194, R197: where every stage output and delay value fits, the lattice step computes the stage equations:
`U = f_0`, `d[0] = U`, `d[i+1] = b_(i+1)`, `d[10]` kept; otherwise it reports the index of the highest stage that does not
fit, the first one reached. -/
def Obligations.LatticeComputesStageEquations : Prop :=
  ∀ (k : Vector Int 10) (d : Vector Delay 11) (u0 : Int),
    (LatticeFits k d u0 → ∃ d', lattice hw k d u0 = .ok (d', stageOut k d u0 10) ∧
      d'[0].toInt = stageOut k d u0 10 ∧
      (∀ (i : Nat) (h : i < 9), d'[i + 1].toInt = stageDelay k d u0 i (by omega)) ∧ d'[10] = d[10]) ∧
    (¬ LatticeFits k d u0 → ∃ (i : Nat) (h : i < 10), lattice hw k d u0 = .error i ∧ ¬ StageFits k d u0 i h ∧
      ∀ (j : Nat) (hj : j < 10), i < j → StageFits k d u0 j hj)

/-- R198 (a): with all coefficients 0 the lattice is a shift register of its inputs. -/
def Obligations.ZeroCoefficientsShift : Prop :=
  ∀ (d : Vector Delay 11) (u0 : Int), FitsDelay u0 →
    lattice hw (Vector.replicate 10 0) d u0 =
      .ok (#v[BitVec.ofInt 40 u0, d[0], d[1], d[2], d[3], d[4], d[5], d[6], d[7], d[8], d[10]], u0)

/-- R194, R264, R266: a speaking STEP faults with LatticeOverflow, bit 3 of `err` set, exactly when a lattice value does not
fit (the spec's decision D7; log 8). -/
def Obligations.StepFaultsOnOverflow : Prop :=
  ∀ s : State, s.isReset = true → s.speaking = true →
    ((∃ i, i < 10 ∧ exec .step s = .fault (.latticeOverflow i (s.err ||| 8#4))) ↔ ¬ SampleFits s) ∧
    ((∃ t, exec .step s = .next t) ↔ SampleFits s)

/-! ### STEP -/

/-- R226: STEP while not speaking returns the sample 0 and changes nothing else. -/
def Obligations.IdleStepChangesNothing : Prop :=
  ∀ s : State, s.isReset = true → s.speaking = false → exec .step s = .next { s with pcm := s.pcm ++ [0#16] }

/-- R224, R225, R227, R193, R195, R196: a speaking STEP inside a frame whose lattice values fit completes: one sample,
the rounded and clamped stage output times 4; the delay line by the stage equations; one sample further in the frame;
nothing else written but the excitation registers. -/
def Obligations.SpeakingStepInsideFrame : Prop :=
  ∀ s : State, s.isReset = true → s.speaking = true → s.sampleInPeriod.toNat < 25 → SampleFits s → ¬ AtFrameEnd s →
    ∃ t, exec .step s = .next t ∧
      t.pcm = s.pcm ++ [BitVec.ofInt 16 (4 * max (-8192) (min ((sampleU s + 32768) / 65536) 8191))] ∧
      t.d[0].toInt = sampleU s ∧
      (∀ (i : Nat) (h : i < 9),
        t.d[i + 1].toInt = stageDelay (effK (interpolate hw s)) s.d (driveOf s) i (by omega)) ∧
      t.d[10] = s.d[10] ∧ t.sampleInPeriod.toNat < 25 ∧
      25 * t.interpPeriod.toNat + t.sampleInPeriod.toNat = 25 * s.interpPeriod.toNat + s.sampleInPeriod.toNat + 1 ∧
      t = { s with
        interpPeriod := t.interpPeriod, sampleInPeriod := t.sampleInPeriod, pitchCursor := t.pitchCursor
        noiseRegister := t.noiseRegister, d := t.d, pcm := t.pcm }

/-- R227, R228, R229, R224, R193: the STEP that ends a frame computes its sample, moves the excitation registers and the
delay line as any speaking STEP does, sets both counters to 0, promotes every target to current, then pulls the next
frame. -/
def Obligations.FrameEndPromotesThenPulls : Prop :=
  ∀ s : State, s.isReset = true → s.speaking = true → SampleFits s → AtFrameEnd s →
    ∃ d' : Vector Delay 11, d'[0].toInt = sampleU s ∧
      (∀ (i : Nat) (h : i < 9),
        d'[i + 1].toInt = stageDelay (effK (interpolate hw s)) s.d (driveOf s) i (by omega)) ∧
      d'[10] = s.d[10] ∧
      exec .step s = .next
        { pull hw { s with
            cur := s.tgt, interpPeriod := 0#3, sampleInPeriod := 0#5, d := d'
            pitchCursor := advanceCursor (interpolate hw s)[1] s.pitchCursor
            noiseRegister := exciteNoise hw (interpolate hw s)[1] s } with
          pcm := s.pcm ++ [BitVec.ofInt 16 (4 * max (-8192) (min ((sampleU s + 32768) / 65536) 8191))] }

/-- R195, R196: every sample of a speaking STEP is a multiple of 4 in -32768..32764. -/
def Obligations.SamplesAreMultiplesOfFour : Prop :=
  ∀ s t : State, s.speaking = true → exec .step s = .next t →
    ∃ v : Sample, t.pcm = s.pcm ++ [v] ∧ v.toInt % 4 = 0 ∧ -32768 ≤ v.toInt ∧ v.toInt ≤ 32764

/-- R198 (b), R123: a speaking engine whose parameters and delay line are all 0 gives the sample 0 and keeps its delay line;
it cannot overflow. -/
def Obligations.QuietEngineStaysQuiet : Prop :=
  ∀ s : State, s.isReset = true → s.speaking = true → s.cur = Vector.replicate 12 0#11 →
    s.tgt = Vector.replicate 12 0#11 → s.d = Vector.replicate 11 0#40 →
    ∃ t, exec .step s = .next t ∧ t.pcm = s.pcm ++ [0#16] ∧ t.d = s.d

/-- The frame of STEP (R22, R25, R31, R38, R224): what no STEP changes, what only the STEP at a frame end changes, and that
an idle STEP changes the output alone. -/
def Obligations.StepFrame : Prop :=
  ∀ s t : State, exec .step s = .next t →
    t.mode = s.mode ∧ t.bsLen = s.bsLen ∧ (∀ a, t.bs.read a = s.bs.read a) ∧ t.fq = s.fq ∧ t.isReset = s.isReset ∧
    t.statusOut = s.statusOut ∧ t.hostCmds = s.hostCmds ∧ t.d[10] = s.d[10] ∧
    (¬(s.speaking = true ∧ AtFrameEnd s) → t.cur = s.cur ∧ t.tgt = s.tgt ∧ t.err = s.err ∧ t.speaking = s.speaking ∧
      t.bitpos = s.bitpos ∧ t.fqIndex = s.fqIndex ∧ t.decayAppended = s.decayAppended) ∧
    (s.speaking = false → t.interpPeriod = s.interpPeriod ∧ t.sampleInPeriod = s.sampleInPeriod ∧
      t.pitchCursor = s.pitchCursor ∧ t.noiseRegister = s.noiseRegister ∧ t.d = s.d)

/-! ### Pulling and loading -/

/-- R230, R261, R229: the pull of a bitstream: at the clean end speaking ends; a malformed stream also sets bit 0 of `err`,
`bitpos` and targets kept; otherwise the frame is executed with `bitpos` after it. That `bitpos` past the stream, outside
R23's range, is a clean end is the model's choice, log 10. -/
def Obligations.BitstreamPull : Prop :=
  ∀ s : State, s.mode = .bitstream →
    (decodeFrame s.bs s.bsLen s.bitpos = .ended → pull hw s = { s with speaking := false }) ∧
    (decodeFrame s.bs s.bsLen s.bitpos = .malformed →
      pull hw s = { s with speaking := false, err := s.err ||| 1#4 }) ∧
    (∀ f next, decodeFrame s.bs s.bsLen s.bitpos = .frame f next →
      exec f.toInstr { s with bitpos := next } = .next (pull hw s))

/-- R232, R229: the pull of a frame queue: the next record; once none is left one SILENCE; after that speaking ends (the
spec's decision D20). -/
def Obligations.QueuePull : Prop :=
  ∀ s : State, s.mode = .frames →
    (∀ h : s.fqIndex < s.fq.length,
      exec s.fq[s.fqIndex].toInstr { s with fqIndex := s.fqIndex + 1 } = .next (pull hw s)) ∧
    (s.fq.length ≤ s.fqIndex → s.decayAppended = false →
      exec .silence { s with decayAppended := true } = .next (pull hw s)) ∧
    (s.fq.length ≤ s.fqIndex → s.decayAppended = true → pull hw s = { s with speaking := false })

/-- R222, R229: LOAD while not speaking completes: it installs the buffer, sets `speaking`, and pulls the first frame. -/
def Obligations.LoadPullsFirstFrame : Prop :=
  ∀ (bytes : List Byte) (s : State), s.isReset = true → s.speaking = false →
    exec (.load bytes) s = .next (pull hw
      { s with
        mode := .bitstream, bs := Memory.ofBytes bytes, bsLen := bytes.length, bitpos := 0, fq := [], fqIndex := 0
        decayAppended := false, speaking := true })

/-- R223, R232: LOAD_FRAMES while not speaking completes: the first record is executed; an empty queue gets the frame of
decay. -/
def Obligations.LoadFramesPullsFirstRecord : Prop :=
  ∀ (frames : List FrameRecord) (s : State), s.isReset = true → s.speaking = false →
    ∃ t, exec (.loadFrames frames) s = .next t ∧
      (∀ f rest, frames = f :: rest → exec f.toInstr
        { s with
          mode := .frames, fq := frames, fqIndex := 1, decayAppended := false, bs := [], bsLen := 0, bitpos := 0
          speaking := true } = .next t) ∧
      (frames = [] → exec .silence
        { s with
          mode := .frames, fq := [], fqIndex := 0, decayAppended := true, bs := [], bsLen := 0, bitpos := 0
          speaking := true } = .next t)

/-- R222, R223, R123, R232: the frame of LOAD and LOAD_FRAMES: neither promotes nor writes `cur`, the excitation registers,
the delay line or the output; the counters are kept, unless the frame pulled is a SILENCE (the stream's first frame, the
queue's first record, or the decay of an empty queue), which sets both to 0. -/
def Obligations.LoadsFrame : Prop :=
  ∀ (i : Instr) (s t : State), ((∃ l, i = .load l) ∨ ∃ l, i = .loadFrames l) → exec i s = .next t →
    t.cur = s.cur ∧ t.pitchCursor = s.pitchCursor ∧ t.noiseRegister = s.noiseRegister ∧ t.d = s.d ∧
    t.isReset = s.isReset ∧ t.pcm = s.pcm ∧ t.statusOut = s.statusOut ∧ t.hostCmds = s.hostCmds ∧
    ((t.interpPeriod = s.interpPeriod ∧ t.sampleInPeriod = s.sampleInPeriod) ∨
      (t.interpPeriod = 0#3 ∧ t.sampleInPeriod = 0#5 ∧
        ((∃ bytes next, i = .load bytes ∧
            decodeFrame (Memory.ofBytes bytes) bytes.length 0 = .frame .silence next) ∨
          i = .loadFrames [] ∨ ∃ rest, i = .loadFrames (.silence :: rest))))

/-- R236, U5: LOAD and LOAD_FRAMES while speaking are refused (the spec's decision D15; log 9). -/
def Obligations.LoadsWhileSpeakingRefused : Prop :=
  ∀ s : State, s.isReset = true → s.speaking = true →
    (∀ l, exec (.load l) s = .refused .loadWhileSpeaking) ∧ (∀ l, exec (.loadFrames l) s = .refused .loadWhileSpeaking)

/-- R235, R34, R35, R36: STATUS completes and reports `talk_status`, the buffer flags by the remaining byte count, and
`err`; it changes nothing of the engine (where the report is kept is the model's choice, log 3). With `bitpos` past the
stream, outside R23's range, R35's integer `bytes_left` would be negative; that it is taken as 0 there, so that both buffer
flags are 1, is the model's choice, log 10. -/
def Obligations.StatusReportsFlags : Prop :=
  ∀ s : State, s.isReset = true → exec .status s = .next
    { s with
      statusOut := some
        { talkStatus := s.speaking
          bufferLow := decide (s.bsLen - (s.bitpos + 7) / 8 ≤ hw.blThreshold)
          bufferEmpty := decide (s.bsLen - (s.bitpos + 7) / 8 = 0)
          err := s.err } }

/-! ### A step runs the decoded instruction -/

/-- R14, R220 (log 1): a step is the host's next command, executed; with nothing queued it is STEP. -/
def Obligations.StepRunsNextCommand : Prop :=
  (∀ (s : State) (c : Command) (rest : List Command), s.hostCmds = c :: rest →
    step s = exec c.toInstr { s with hostCmds := rest }) ∧
  ∀ s : State, s.hostCmds = [] → step s = exec .step s

/-- R222, R227, R230: where the bits at the fetch address decode to a frame, the command that fetches it executes exactly that
instruction: a LOAD at bit 0, a STEP at a frame end at `bitpos`, with `bitpos` moved past the frame. -/
def Obligations.FetchedFrameIsExecuted : Prop :=
  (∀ (bytes : List Byte) (s : State) (f : FrameRecord) (next : Nat), s.isReset = true → s.speaking = false →
    decodeFrame (Memory.ofBytes bytes) bytes.length 0 = .frame f next →
    exec (.load bytes) s = exec f.toInstr
      { s with
        mode := .bitstream, bs := Memory.ofBytes bytes, bsLen := bytes.length, bitpos := next, fq := [], fqIndex := 0
        decayAppended := false, speaking := true }) ∧
  ∀ (s : State) (f : FrameRecord) (next : Nat), s.isReset = true → s.speaking = true → s.mode = .bitstream →
    SampleFits s → AtFrameEnd s → decodeFrame s.bs s.bsLen s.bitpos = .frame f next →
    ∃ cursor noise d' v t,
      exec f.toInstr
        { s with
          cur := s.tgt, interpPeriod := 0#3, sampleInPeriod := 0#5, pitchCursor := cursor, noiseRegister := noise
          d := d', bitpos := next } = .next t ∧
      exec .step s = .next { t with pcm := s.pcm ++ [v] }

/-- The word placed by `withFetchWord` (log 2) is what the next step executes: the frame decoded at bit 0 of a buffer that
holds it, with `bitpos` at the bit after that frame. -/
def Obligations.PlacedWordRunsNext : Prop :=
  ∀ (nbits w : Nat) (i : Instr) (s : State), decodeTableWord nbits w = some i →
    ∃ f next, decodeFrame (Memory.ofBytes (tableBytes nbits w)) (tableBytes nbits w).length 0 = .frame f next ∧
      i = f.toInstr ∧
      step (s.withFetchWord nbits w) = exec i
        { s with
          isReset := true, mode := .bitstream, bs := Memory.ofBytes (tableBytes nbits w)
          bsLen := (tableBytes nbits w).length, bitpos := next, fq := [], fqIndex := 0, decayAppended := false
          speaking := true }

/-! ### Whole-machine rules -/

/-- R22: `cur` is written by RESET and by the promotion at a frame end, and by nothing else. -/
def Obligations.CurrentWrittenByPromotion : Prop :=
  ∀ (i : Instr) (s t : State), exec i s = .next t →
    t.cur = s.cur ∨ i = .reset ∨ (i = .step ∧ s.speaking = true ∧ AtFrameEnd s ∧ t.cur = s.tgt)

/-- R25: `mode` is NONE after RESET, BITSTREAM after LOAD, FRAMES after LOAD_FRAMES, and written by those three only. -/
def Obligations.ModeWrittenByThreeCommands : Prop :=
  ∀ (i : Instr) (s t : State), exec i s = .next t →
    t.mode = match i with
      | .reset => .none
      | .load _ => .bitstream
      | .loadFrames _ => .frames
      | .stop | .silence | .repeatFrame _ _ | .unvoiced _ _ | .voiced _ _ _ | .values _ _ _ | .step | .status => s.mode

/-- R28, R29, R30, R31: the pitch cursor, the noise register and the delay line are written by RESET and a speaking STEP
only; the noise register by a STEP whose effective pitch is 0, as one LFSR update; `d[10]` by RESET only. -/
def Obligations.GeneratorsWrittenByStep : Prop :=
  ∀ (i : Instr) (s t : State), exec i s = .next t → i ≠ .reset →
    t.d[10] = s.d[10] ∧
    (t.noiseRegister = s.noiseRegister ∨
      (i = .step ∧ s.speaking = true ∧ (interpolate hw s)[1] ≤ 0 ∧ t.noiseRegister = lfsrNext s.noiseRegister)) ∧
    ((t.pitchCursor = s.pitchCursor ∧ t.d = s.d) ∨ (i = .step ∧ s.speaking = true))

/-- R23: but for LOAD, LOAD_FRAMES and RESET the bit cursor stands still, or moves past one frame of 4, 11, 29 or 50 bits
inside the stream, in the STEP that ends a frame. -/
def Obligations.BitCursorMovesByFrames : Prop :=
  ∀ (i : Instr) (s t : State), exec i s = .next t → i ≠ .reset → (∀ l, i ≠ .load l) → (∀ l, i ≠ .loadFrames l) →
    t.bitpos = s.bitpos ∨
    (i = .step ∧ s.speaking = true ∧ AtFrameEnd s ∧ s.mode = .bitstream ∧ t.bitpos ≤ 8 * s.bsLen ∧
      ∃ n ∈ [4, 11, 29, 50], t.bitpos = s.bitpos + n)

/-- R38, R70, R72: no instruction but LOAD, LOAD_FRAMES and RESET changes a byte of the bitstream, its length or the frame
queue. -/
def Obligations.BuffersWrittenByLoadsOnly : Prop :=
  ∀ (i : Instr) (s t : State), exec i s = .next t → i ≠ .reset → (∀ l, i ≠ .load l) → (∀ l, i ≠ .loadFrames l) →
    t.bsLen = s.bsLen ∧ t.fq = s.fq ∧ ∀ a, t.bs.read a = s.bs.read a

/-- R33, R268, R262: but for RESET no instruction clears an error bit, and no instruction sets OVERLONG or LATTICE_OVF in a
next state. -/
def Obligations.ErrorBitsAreSticky : Prop :=
  ∀ (i : Instr) (s t : State), exec i s = .next t → i ≠ .reset →
    s.err &&& t.err = s.err ∧ t.err.getLsbD 1 = s.err.getLsbD 1 ∧ t.err.getLsbD 3 = s.err.getLsbD 3

/-- R69: one STEP, one sample, appended to the output; no other instruction writes it (the list is the
model's choice, log 3). -/
def Obligations.OneSamplePerStep : Prop :=
  ∀ (i : Instr) (s t : State), exec i s = .next t →
    (i = .step → ∃ v : Sample, t.pcm = s.pcm ++ [v]) ∧ (i ≠ .step → t.pcm = s.pcm)

/-- The invariant holds right after reset. -/
def Obligations.ResetMeetsInvariant : Prop := State.reset.Inv

/-- R21 to R31, R243: every step of the machine keeps the invariant: legal registers and counters, a non-zero LFSR, `d[10]`
zero, cursors inside their buffers, memory in canonical form, counters at 0 while not speaking. -/
def Obligations.StepKeepsInvariant : Prop :=
  ∀ s t : State, s.Inv → step s = .next t → t.Inv

/-- R227, R242: between two pulls exactly 200 STEPs pass. With `25 interp_period + sample_in_period` as the place in the
frame, `n` STEPs that do not reach place 200 leave the engine `n` places further, with everything that a pull or a
promotion writes unchanged; the STEP that reaches 200 sets the counters to 0 and promotes the targets; each STEP gives one
sample. -/
def Obligations.FrameLastsTwoHundredSteps : Prop :=
  ∀ (s t : State) (n p : Nat), s.speaking = true → s.sampleInPeriod.toNat < 25 →
    p = 25 * s.interpPeriod.toNat + s.sampleInPeriod.toNat → stepTimes n s = .next t →
    (p + n < 200 → 25 * t.interpPeriod.toNat + t.sampleInPeriod.toNat = p + n ∧ t.sampleInPeriod.toNat < 25 ∧
      t.cur = s.cur ∧ t.tgt = s.tgt ∧ t.bitpos = s.bitpos ∧ t.fqIndex = s.fqIndex ∧ t.speaking = true ∧
      t.err = s.err) ∧
    (p + n = 200 → t.interpPeriod = 0#3 ∧ t.sampleInPeriod = 0#5 ∧ t.cur = s.tgt) ∧
    (p + n ≤ 200 → t.pcm.length = s.pcm.length + n)

/-- R240, R241, R262, U12: a rendering never hands out more than `cap` samples; afterwards `speaking` is 0 unless the cap was
reached, and then bit 1 of `err` is set; a cap below 1 is refused (log 14). -/
def Obligations.RenderStaysUnderCap : Prop :=
  ∀ run : Int → State → Answer, ((∃ l, run = render l) ∨ ∃ l, run = renderFrames l) →
    ∀ (cap : Int) (s : State),
      (cap < 1 → run cap s = .refused .capBelowOne) ∧
      ∀ t, run cap s = .next t →
        s.pcm <+: t.pcm ∧ ((samplesSince s t).length : Int) ≤ cap ∧
        (t.speaking = false ∨ ((samplesSince s t).length : Int) = cap) ∧
        (t.err.getLsbD 1 = true ↔ t.speaking = true)
end

