-- ==== Sys2Proof/Laws/Config.lean ====
section
/-! SUPPORT. The machine's configuration: its decided fields, and that it is admissible (00_scope.md R8) whatever the OPEN
tables hold. -/

namespace Sys2Proof.Machine

@[simp] theorem hw_chirpLen : hw.chirpLen = 53 := rfl
@[simp] theorem hw_interpPhase : hw.interpPhase = 1 := rfl
@[simp] theorem hw_lfsrFreeRun : hw.lfsrFreeRun = false := rfl
@[simp] theorem hw_latFrac : hw.latFrac = 16 := rfl
@[simp] theorem hw_latW : hw.latW = 40 := rfl
@[simp] theorem hw_paramW : hw.paramW = 11 := rfl
@[simp] theorem hw_cap : hw.cap = 240000 := rfl
@[simp] theorem hw_kMul (k x : Int) : hw.kMul k x = k * x / 512 := rfl

/-- The machine's configuration meets R8 and the range of `BL_THRESHOLD` (R36). -/
theorem hw_admissible : hw.Admissible where
  energy i _ := by
    have h := (Config.freeEnergy (Fin.ofNat 16 i)).isLt
    simp only [hw]; omega
  pitch i _ := by
    simp only [hw]
    split
    · exact .inl rfl
    · split
      · exact .inl rfl
      · rename_i n _; have h := n.isLt; right; omega
  pitchZero := rfl
  k t _ i _ := by
    have h := (Config.freeK (Fin.ofNat 10 t) (Fin.ofNat 32 i)).isLt
    simp only [hw]; omega
  chirp i _ := by
    have h1 := BitVec.le_toInt (Config.freeChirp (Fin.ofNat 53 i))
    have h2 := BitVec.toInt_lt (x := Config.freeChirp (Fin.ofNat 53 i))
    simp only [hw]; omega
  threshold := by
    have h := Config.freeThreshold.isLt
    simp only [hw]; omega
  capPositive := by decide
  paramWidth := by decide
  latWidth := by decide

/-- A parameter register holds any value in -1024..1023 exactly (10_state.md R20). -/
theorem toParam_toInt (v : Int) (h0 : -1024 ≤ v) (h1 : v ≤ 1023) : (toParam v : Param).toInt = v := by
  have h2 : paramW = 11 := rfl
  rw [toParam, BitVec.toInt_ofInt, Int.bmod_eq_of_le] <;> simp only [h2] <;> omega

/-- An energy entry as its register holds it (R67): no bit is lost. -/
theorem romEnergy_toInt (e : Int) (h0 : 0 ≤ e) (h1 : e < 16) : (romEnergy hw e : Param).toInt = hw.energyTable e.toNat := by
  have h := hw_admissible.energy e.toNat (by omega)
  exact toParam_toInt _ (by omega) (by omega)

/-- A pitch entry as its register holds it. -/
theorem romPitch_toInt (p : Int) (h0 : 0 ≤ p) (h1 : p < 64) : (romPitch hw p : Param).toInt = hw.pitchTable p.toNat := by
  have h := hw_admissible.pitch p.toNat (by omega)
  exact toParam_toInt _ (by omega) (by omega)

/-- A K entry as its register holds it. -/
theorem romK_toInt (t : Nat) (ht : t < 10) (i : Int) (h0 : 0 ≤ i)
    (h1 : i < (([32, 32, 16, 16, 16, 16, 16, 8, 8, 8].getD t 0 : Nat) : Int)) :
    (romK hw t i : Param).toInt = hw.kTable t i.toNat := by
  have h := hw_admissible.k t ht i.toNat (by omega)
  exact toParam_toInt _ (by omega) (by omega)

end Sys2Proof.Machine
end

