-- ==== Sys2Proof/Laws/Memory.lean ====
section
/-! SUPPORT. The bitstream space: the one operation that writes it keeps the canonical form, and reads give back what was
loaded. -/

namespace Sys2Proof

@[simp] theorem Memory.wf_empty : Memory.wf [] = true := rfl

@[simp] theorem Memory.within_empty (n : Nat) : Memory.within [] n = true := rfl

theorem Memory.wfFrom_mono {m : Memory} {a b : Nat} (h : Memory.wfFrom b m = true) (hab : a ≤ b) :
    Memory.wfFrom a m = true := by
  cases m with
  | nil => rfl
  | cons c rest =>
    simp only [Memory.wfFrom, Bool.and_eq_true, decide_eq_true_eq] at h ⊢
    exact ⟨⟨Nat.le_trans hab h.1.1, h.1.2⟩, h.2⟩

theorem Memory.wfFrom_ofBytesFrom (bytes : List Byte) : ∀ a, Memory.wfFrom a (Memory.ofBytesFrom a bytes) = true := by
  induction bytes with
  | nil => intro a; rfl
  | cons v rest ih =>
    intro a
    rw [Memory.ofBytesFrom]
    split
    · exact Memory.wfFrom_mono (ih (a + 1)) (Nat.le_succ a)
    · next hv => simp [Memory.wfFrom, ih (a + 1), hv]

/-- A loaded buffer is in canonical form. -/
theorem Memory.wf_ofBytes (bytes : List Byte) : (Memory.ofBytes bytes).wf = true := Memory.wfFrom_ofBytesFrom bytes 0

theorem Memory.within_ofBytesFrom (bytes : List Byte) :
    ∀ a n, a + bytes.length ≤ n → Memory.within (Memory.ofBytesFrom a bytes) n = true := by
  induction bytes with
  | nil => intro a n _; rfl
  | cons v rest ih =>
    intro a n h
    simp only [List.length_cons] at h
    have hr := ih (a + 1) n (by omega)
    rw [Memory.ofBytesFrom]
    split
    · exact hr
    · rw [Memory.within, List.all_cons, Bool.and_eq_true, decide_eq_true_eq]
      exact ⟨by simp; omega, hr⟩

/-- A loaded buffer has no byte outside it. -/
theorem Memory.within_ofBytes (bytes : List Byte) : (Memory.ofBytes bytes).within bytes.length = true :=
  Memory.within_ofBytesFrom bytes 0 bytes.length (by omega)

theorem Memory.read_ofBytesFrom_below (bytes : List Byte) :
    ∀ a x, x < a → (Memory.ofBytesFrom a bytes).read x = Memory.unlisted := by
  induction bytes with
  | nil => intro a x _; rfl
  | cons v rest ih =>
    intro a x h
    rw [Memory.ofBytesFrom]
    split
    · exact ih (a + 1) x (by omega)
    · rw [Memory.read, if_neg (by omega)]; exact ih (a + 1) x (by omega)

theorem Memory.read_ofBytesFrom (bytes : List Byte) :
    ∀ a x, (Memory.ofBytesFrom a bytes).read (a + x) = bytes.getD x Memory.unlisted := by
  induction bytes with
  | nil => intro a x; simp [Memory.ofBytesFrom, Memory.read]
  | cons v rest ih =>
    intro a x
    rw [Memory.ofBytesFrom]
    cases x with
    | zero =>
      split
      · next hv => rw [Memory.read_ofBytesFrom_below rest (a + 1) (a + 0) (by omega), ← hv]; rfl
      · simp [Memory.read]
    | succ x =>
      have h := ih (a + 1) x
      rw [show a + (x + 1) = a + 1 + x by omega]
      split
      · rw [h]; rfl
      · rw [Memory.read, if_neg (by omega), h]; rfl

/-- Byte `x` of a loaded buffer is byte `x` of the sequence loaded (20_memory.md R62). -/
theorem Memory.read_ofBytes (bytes : List Byte) (x : Nat) :
    (Memory.ofBytes bytes).read x = bytes.getD x Memory.unlisted := by
  simpa [Memory.ofBytes] using Memory.read_ofBytesFrom bytes 0 x

/-- A `w`-bit field is below `2^w` (R63). -/
theorem Memory.readBits_lt (m : Memory) (pos w : Nat) : m.readBits pos w < 2 ^ w := by
  induction w with
  | zero => simp [Memory.readBits]
  | succ w ih =>
    rw [Memory.readBits, Nat.shiftLeft_eq, Nat.pow_succ]
    have hb : (m.bit (pos + w)).toNat ≤ 1 := Bool.toNat_le _
    have := Nat.mul_le_mul_right (2 ^ w) hb
    omega

end Sys2Proof
end

