-- ==== Sys2Proof/Laws/Decode.lean ====
section
/-! SUPPORT. Everything the frame decoder can answer, once (40_frame_decoder.md R120, R127). -/

namespace Sys2Proof

open Sys2Proof.Machine

theorem fits_eq_false {len pos n : Nat} : fits len pos n = false ↔ 8 * len < pos + n := by simp [fits]

theorem fits_eq_true {len pos n : Nat} : fits len pos n = true ↔ pos + n ≤ 8 * len := by simp [fits]

/-- The three answers of `DecodeFrame`: the clean end, a stream that ends inside the frame, or a record of one of the five
formats with the address after it, which lies in the stream. -/
theorem decodeFrame_cases (m : Memory) (len pos : Nat) :
    (decodeFrame m len pos = .ended ∧ 8 * len ≤ pos) ∨ (decodeFrame m len pos = .malformed ∧ pos < 8 * len) ∨
    ∃ f n, decodeFrame m len pos = .frame f (pos + n) ∧ pos + n ≤ 8 * len ∧
      ((n = 4 ∧ f = .stop ∧ energyAt m pos = 15) ∨
       (n = 4 ∧ f = .silence ∧ energyAt m pos = 0) ∨
       (n = 11 ∧ f = .repeatFrame (energyAt m pos) (pitchAt m pos) ∧ energyAt m pos ≠ 15 ∧ energyAt m pos ≠ 0 ∧
        repeatAt m pos = 1) ∨
       (n = 29 ∧ f = .unvoiced (energyAt m pos) (ksAt 4 m pos) ∧ energyAt m pos ≠ 15 ∧ energyAt m pos ≠ 0 ∧
        repeatAt m pos ≠ 1 ∧ pitchAt m pos = 0) ∨
       (n = 50 ∧ f = .voiced (energyAt m pos) (pitchAt m pos) (ksAt 10 m pos) ∧ energyAt m pos ≠ 15 ∧
        energyAt m pos ≠ 0 ∧ repeatAt m pos ≠ 1 ∧ pitchAt m pos ≠ 0)) := by
  unfold decodeFrame
  split
  · left; exact ⟨rfl, by omega⟩
  right
  split
  · left; exact ⟨rfl, by omega⟩
  next h4 =>
  rw [Bool.not_eq_false, fits_eq_true] at h4
  split
  · next h => right; exact ⟨_, 4, rfl, h4, .inl ⟨rfl, rfl, h⟩⟩
  split
  · next h => right; exact ⟨_, 4, rfl, h4, .inr (.inl ⟨rfl, rfl, h⟩)⟩
  split
  · left; exact ⟨rfl, by omega⟩
  next h11 =>
  rw [Bool.not_eq_false, fits_eq_true] at h11
  split
  · next h15 h0 hr => right; exact ⟨_, 11, rfl, h11, .inr (.inr (.inl ⟨rfl, rfl, h15, h0, hr⟩))⟩
  split
  · left; exact ⟨rfl, by omega⟩
  next h29 =>
  rw [Bool.not_eq_false, fits_eq_true] at h29
  split
  · next h15 h0 hr hp => right; exact ⟨_, 29, rfl, h29, .inr (.inr (.inr (.inl ⟨rfl, rfl, h15, h0, hr, hp⟩)))⟩
  split
  · left; exact ⟨rfl, by omega⟩
  next h50 =>
  rw [Bool.not_eq_false, fits_eq_true] at h50
  next h15 h0 hr hp => right; exact ⟨_, 50, rfl, h50, .inr (.inr (.inr (.inr ⟨rfl, rfl, h15, h0, hr, hp⟩)))⟩

theorem energyAt_lt (m : Memory) (pos : Nat) : energyAt m pos < 16 := Memory.readBits_lt m pos 4

theorem repeatAt_lt (m : Memory) (pos : Nat) : repeatAt m pos < 2 := Memory.readBits_lt m (pos + 4) 1

theorem pitchAt_lt (m : Memory) (pos : Nat) : pitchAt m pos < 64 := Memory.readBits_lt m (pos + 5) 6

theorem kAt_lt (m : Memory) (pos i : Nat) (h : i < 10) : kAt m pos i < kCard i := by
  have h1 := Memory.readBits_lt m (pos + kOffset i) (kWidth i)
  have h2 : kCard i = 2 ^ kWidth i := by
    have : ∀ j : Fin 10, kCard j.val = 2 ^ kWidth j.val := by decide
    exact this ⟨i, h⟩
  rw [h2]; exact h1

end Sys2Proof
end

