-- ==== Sys2Proof/Laws/State.lean ====
section
/-! SUPPORT. One lemma per field per named update of State (Machine/Ops.lean), each true by rfl. -/

namespace Sys2Proof.Machine

variable {pw lw : Nat}

/-! ### `State.raise` -/

@[simp] theorem State.raise_cur (c : Condition) (s : State pw lw) : (s.raise c).cur = s.cur := rfl
@[simp] theorem State.raise_tgt (c : Condition) (s : State pw lw) : (s.raise c).tgt = s.tgt := rfl
@[simp] theorem State.raise_interpPeriod (c : Condition) (s : State pw lw) : (s.raise c).interpPeriod = s.interpPeriod := rfl
@[simp] theorem State.raise_sampleInPeriod (c : Condition) (s : State pw lw) : (s.raise c).sampleInPeriod = s.sampleInPeriod := rfl
@[simp] theorem State.raise_pitchCursor (c : Condition) (s : State pw lw) : (s.raise c).pitchCursor = s.pitchCursor := rfl
@[simp] theorem State.raise_noiseRegister (c : Condition) (s : State pw lw) : (s.raise c).noiseRegister = s.noiseRegister := rfl
@[simp] theorem State.raise_d (c : Condition) (s : State pw lw) : (s.raise c).d = s.d := rfl
@[simp] theorem State.raise_speaking (c : Condition) (s : State pw lw) : (s.raise c).speaking = s.speaking := rfl
@[simp] theorem State.raise_err (c : Condition) (s : State pw lw) : (s.raise c).err = s.err ||| c.mask := rfl
@[simp] theorem State.raise_mode (c : Condition) (s : State pw lw) : (s.raise c).mode = s.mode := rfl
@[simp] theorem State.raise_bitpos (c : Condition) (s : State pw lw) : (s.raise c).bitpos = s.bitpos := rfl
@[simp] theorem State.raise_bs (c : Condition) (s : State pw lw) : (s.raise c).bs = s.bs := rfl
@[simp] theorem State.raise_bsLen (c : Condition) (s : State pw lw) : (s.raise c).bsLen = s.bsLen := rfl
@[simp] theorem State.raise_fq (c : Condition) (s : State pw lw) : (s.raise c).fq = s.fq := rfl
@[simp] theorem State.raise_fqIndex (c : Condition) (s : State pw lw) : (s.raise c).fqIndex = s.fqIndex := rfl
@[simp] theorem State.raise_decayAppended (c : Condition) (s : State pw lw) : (s.raise c).decayAppended = s.decayAppended := rfl
@[simp] theorem State.raise_isReset (c : Condition) (s : State pw lw) : (s.raise c).isReset = s.isReset := rfl
@[simp] theorem State.raise_pcm (c : Condition) (s : State pw lw) : (s.raise c).pcm = s.pcm := rfl
@[simp] theorem State.raise_statusOut (c : Condition) (s : State pw lw) : (s.raise c).statusOut = s.statusOut := rfl
@[simp] theorem State.raise_hostCmds (c : Condition) (s : State pw lw) : (s.raise c).hostCmds = s.hostCmds := rfl

/-! ### `State.setTgt` -/

@[simp] theorem State.setTgt_cur (v : Vector (BitVec pw) 12) (s : State pw lw) : (s.setTgt v).cur = s.cur := rfl
@[simp] theorem State.setTgt_tgt (v : Vector (BitVec pw) 12) (s : State pw lw) : (s.setTgt v).tgt = v := rfl
@[simp] theorem State.setTgt_interpPeriod (v : Vector (BitVec pw) 12) (s : State pw lw) : (s.setTgt v).interpPeriod = s.interpPeriod := rfl
@[simp] theorem State.setTgt_sampleInPeriod (v : Vector (BitVec pw) 12) (s : State pw lw) : (s.setTgt v).sampleInPeriod = s.sampleInPeriod := rfl
@[simp] theorem State.setTgt_pitchCursor (v : Vector (BitVec pw) 12) (s : State pw lw) : (s.setTgt v).pitchCursor = s.pitchCursor := rfl
@[simp] theorem State.setTgt_noiseRegister (v : Vector (BitVec pw) 12) (s : State pw lw) : (s.setTgt v).noiseRegister = s.noiseRegister := rfl
@[simp] theorem State.setTgt_d (v : Vector (BitVec pw) 12) (s : State pw lw) : (s.setTgt v).d = s.d := rfl
@[simp] theorem State.setTgt_speaking (v : Vector (BitVec pw) 12) (s : State pw lw) : (s.setTgt v).speaking = s.speaking := rfl
@[simp] theorem State.setTgt_err (v : Vector (BitVec pw) 12) (s : State pw lw) : (s.setTgt v).err = s.err := rfl
@[simp] theorem State.setTgt_mode (v : Vector (BitVec pw) 12) (s : State pw lw) : (s.setTgt v).mode = s.mode := rfl
@[simp] theorem State.setTgt_bitpos (v : Vector (BitVec pw) 12) (s : State pw lw) : (s.setTgt v).bitpos = s.bitpos := rfl
@[simp] theorem State.setTgt_bs (v : Vector (BitVec pw) 12) (s : State pw lw) : (s.setTgt v).bs = s.bs := rfl
@[simp] theorem State.setTgt_bsLen (v : Vector (BitVec pw) 12) (s : State pw lw) : (s.setTgt v).bsLen = s.bsLen := rfl
@[simp] theorem State.setTgt_fq (v : Vector (BitVec pw) 12) (s : State pw lw) : (s.setTgt v).fq = s.fq := rfl
@[simp] theorem State.setTgt_fqIndex (v : Vector (BitVec pw) 12) (s : State pw lw) : (s.setTgt v).fqIndex = s.fqIndex := rfl
@[simp] theorem State.setTgt_decayAppended (v : Vector (BitVec pw) 12) (s : State pw lw) : (s.setTgt v).decayAppended = s.decayAppended := rfl
@[simp] theorem State.setTgt_isReset (v : Vector (BitVec pw) 12) (s : State pw lw) : (s.setTgt v).isReset = s.isReset := rfl
@[simp] theorem State.setTgt_pcm (v : Vector (BitVec pw) 12) (s : State pw lw) : (s.setTgt v).pcm = s.pcm := rfl
@[simp] theorem State.setTgt_statusOut (v : Vector (BitVec pw) 12) (s : State pw lw) : (s.setTgt v).statusOut = s.statusOut := rfl
@[simp] theorem State.setTgt_hostCmds (v : Vector (BitVec pw) 12) (s : State pw lw) : (s.setTgt v).hostCmds = s.hostCmds := rfl

/-! ### `State.promote` -/

@[simp] theorem State.promote_cur (s : State pw lw) : s.promote.cur = s.tgt := rfl
@[simp] theorem State.promote_tgt (s : State pw lw) : s.promote.tgt = s.tgt := rfl
@[simp] theorem State.promote_interpPeriod (s : State pw lw) : s.promote.interpPeriod = s.interpPeriod := rfl
@[simp] theorem State.promote_sampleInPeriod (s : State pw lw) : s.promote.sampleInPeriod = s.sampleInPeriod := rfl
@[simp] theorem State.promote_pitchCursor (s : State pw lw) : s.promote.pitchCursor = s.pitchCursor := rfl
@[simp] theorem State.promote_noiseRegister (s : State pw lw) : s.promote.noiseRegister = s.noiseRegister := rfl
@[simp] theorem State.promote_d (s : State pw lw) : s.promote.d = s.d := rfl
@[simp] theorem State.promote_speaking (s : State pw lw) : s.promote.speaking = s.speaking := rfl
@[simp] theorem State.promote_err (s : State pw lw) : s.promote.err = s.err := rfl
@[simp] theorem State.promote_mode (s : State pw lw) : s.promote.mode = s.mode := rfl
@[simp] theorem State.promote_bitpos (s : State pw lw) : s.promote.bitpos = s.bitpos := rfl
@[simp] theorem State.promote_bs (s : State pw lw) : s.promote.bs = s.bs := rfl
@[simp] theorem State.promote_bsLen (s : State pw lw) : s.promote.bsLen = s.bsLen := rfl
@[simp] theorem State.promote_fq (s : State pw lw) : s.promote.fq = s.fq := rfl
@[simp] theorem State.promote_fqIndex (s : State pw lw) : s.promote.fqIndex = s.fqIndex := rfl
@[simp] theorem State.promote_decayAppended (s : State pw lw) : s.promote.decayAppended = s.decayAppended := rfl
@[simp] theorem State.promote_isReset (s : State pw lw) : s.promote.isReset = s.isReset := rfl
@[simp] theorem State.promote_pcm (s : State pw lw) : s.promote.pcm = s.pcm := rfl
@[simp] theorem State.promote_statusOut (s : State pw lw) : s.promote.statusOut = s.statusOut := rfl
@[simp] theorem State.promote_hostCmds (s : State pw lw) : s.promote.hostCmds = s.hostCmds := rfl

/-! ### `State.stopSpeaking` -/

@[simp] theorem State.stopSpeaking_cur (s : State pw lw) : s.stopSpeaking.cur = s.cur := rfl
@[simp] theorem State.stopSpeaking_tgt (s : State pw lw) : s.stopSpeaking.tgt = s.tgt := rfl
@[simp] theorem State.stopSpeaking_interpPeriod (s : State pw lw) : s.stopSpeaking.interpPeriod = s.interpPeriod := rfl
@[simp] theorem State.stopSpeaking_sampleInPeriod (s : State pw lw) : s.stopSpeaking.sampleInPeriod = s.sampleInPeriod := rfl
@[simp] theorem State.stopSpeaking_pitchCursor (s : State pw lw) : s.stopSpeaking.pitchCursor = s.pitchCursor := rfl
@[simp] theorem State.stopSpeaking_noiseRegister (s : State pw lw) : s.stopSpeaking.noiseRegister = s.noiseRegister := rfl
@[simp] theorem State.stopSpeaking_d (s : State pw lw) : s.stopSpeaking.d = s.d := rfl
@[simp] theorem State.stopSpeaking_speaking (s : State pw lw) : s.stopSpeaking.speaking = false := rfl
@[simp] theorem State.stopSpeaking_err (s : State pw lw) : s.stopSpeaking.err = s.err := rfl
@[simp] theorem State.stopSpeaking_mode (s : State pw lw) : s.stopSpeaking.mode = s.mode := rfl
@[simp] theorem State.stopSpeaking_bitpos (s : State pw lw) : s.stopSpeaking.bitpos = s.bitpos := rfl
@[simp] theorem State.stopSpeaking_bs (s : State pw lw) : s.stopSpeaking.bs = s.bs := rfl
@[simp] theorem State.stopSpeaking_bsLen (s : State pw lw) : s.stopSpeaking.bsLen = s.bsLen := rfl
@[simp] theorem State.stopSpeaking_fq (s : State pw lw) : s.stopSpeaking.fq = s.fq := rfl
@[simp] theorem State.stopSpeaking_fqIndex (s : State pw lw) : s.stopSpeaking.fqIndex = s.fqIndex := rfl
@[simp] theorem State.stopSpeaking_decayAppended (s : State pw lw) : s.stopSpeaking.decayAppended = s.decayAppended := rfl
@[simp] theorem State.stopSpeaking_isReset (s : State pw lw) : s.stopSpeaking.isReset = s.isReset := rfl
@[simp] theorem State.stopSpeaking_pcm (s : State pw lw) : s.stopSpeaking.pcm = s.pcm := rfl
@[simp] theorem State.stopSpeaking_statusOut (s : State pw lw) : s.stopSpeaking.statusOut = s.statusOut := rfl
@[simp] theorem State.stopSpeaking_hostCmds (s : State pw lw) : s.stopSpeaking.hostCmds = s.hostCmds := rfl

/-! ### `State.setCounters` -/

@[simp] theorem State.setCounters_cur (ip sip : Nat) (s : State pw lw) : (s.setCounters ip sip).cur = s.cur := rfl
@[simp] theorem State.setCounters_tgt (ip sip : Nat) (s : State pw lw) : (s.setCounters ip sip).tgt = s.tgt := rfl
@[simp] theorem State.setCounters_interpPeriod (ip sip : Nat) (s : State pw lw) : (s.setCounters ip sip).interpPeriod = BitVec.ofNat 3 ip := rfl
@[simp] theorem State.setCounters_sampleInPeriod (ip sip : Nat) (s : State pw lw) : (s.setCounters ip sip).sampleInPeriod = BitVec.ofNat 5 sip := rfl
@[simp] theorem State.setCounters_pitchCursor (ip sip : Nat) (s : State pw lw) : (s.setCounters ip sip).pitchCursor = s.pitchCursor := rfl
@[simp] theorem State.setCounters_noiseRegister (ip sip : Nat) (s : State pw lw) : (s.setCounters ip sip).noiseRegister = s.noiseRegister := rfl
@[simp] theorem State.setCounters_d (ip sip : Nat) (s : State pw lw) : (s.setCounters ip sip).d = s.d := rfl
@[simp] theorem State.setCounters_speaking (ip sip : Nat) (s : State pw lw) : (s.setCounters ip sip).speaking = s.speaking := rfl
@[simp] theorem State.setCounters_err (ip sip : Nat) (s : State pw lw) : (s.setCounters ip sip).err = s.err := rfl
@[simp] theorem State.setCounters_mode (ip sip : Nat) (s : State pw lw) : (s.setCounters ip sip).mode = s.mode := rfl
@[simp] theorem State.setCounters_bitpos (ip sip : Nat) (s : State pw lw) : (s.setCounters ip sip).bitpos = s.bitpos := rfl
@[simp] theorem State.setCounters_bs (ip sip : Nat) (s : State pw lw) : (s.setCounters ip sip).bs = s.bs := rfl
@[simp] theorem State.setCounters_bsLen (ip sip : Nat) (s : State pw lw) : (s.setCounters ip sip).bsLen = s.bsLen := rfl
@[simp] theorem State.setCounters_fq (ip sip : Nat) (s : State pw lw) : (s.setCounters ip sip).fq = s.fq := rfl
@[simp] theorem State.setCounters_fqIndex (ip sip : Nat) (s : State pw lw) : (s.setCounters ip sip).fqIndex = s.fqIndex := rfl
@[simp] theorem State.setCounters_decayAppended (ip sip : Nat) (s : State pw lw) : (s.setCounters ip sip).decayAppended = s.decayAppended := rfl
@[simp] theorem State.setCounters_isReset (ip sip : Nat) (s : State pw lw) : (s.setCounters ip sip).isReset = s.isReset := rfl
@[simp] theorem State.setCounters_pcm (ip sip : Nat) (s : State pw lw) : (s.setCounters ip sip).pcm = s.pcm := rfl
@[simp] theorem State.setCounters_statusOut (ip sip : Nat) (s : State pw lw) : (s.setCounters ip sip).statusOut = s.statusOut := rfl
@[simp] theorem State.setCounters_hostCmds (ip sip : Nat) (s : State pw lw) : (s.setCounters ip sip).hostCmds = s.hostCmds := rfl

/-! ### `State.setExcitation` -/

@[simp] theorem State.setExcitation_cur (c : BitVec 8) (r : BitVec 17) (s : State pw lw) : (s.setExcitation c r).cur = s.cur := rfl
@[simp] theorem State.setExcitation_tgt (c : BitVec 8) (r : BitVec 17) (s : State pw lw) : (s.setExcitation c r).tgt = s.tgt := rfl
@[simp] theorem State.setExcitation_interpPeriod (c : BitVec 8) (r : BitVec 17) (s : State pw lw) : (s.setExcitation c r).interpPeriod = s.interpPeriod := rfl
@[simp] theorem State.setExcitation_sampleInPeriod (c : BitVec 8) (r : BitVec 17) (s : State pw lw) : (s.setExcitation c r).sampleInPeriod = s.sampleInPeriod := rfl
@[simp] theorem State.setExcitation_pitchCursor (c : BitVec 8) (r : BitVec 17) (s : State pw lw) : (s.setExcitation c r).pitchCursor = c := rfl
@[simp] theorem State.setExcitation_noiseRegister (c : BitVec 8) (r : BitVec 17) (s : State pw lw) : (s.setExcitation c r).noiseRegister = r := rfl
@[simp] theorem State.setExcitation_d (c : BitVec 8) (r : BitVec 17) (s : State pw lw) : (s.setExcitation c r).d = s.d := rfl
@[simp] theorem State.setExcitation_speaking (c : BitVec 8) (r : BitVec 17) (s : State pw lw) : (s.setExcitation c r).speaking = s.speaking := rfl
@[simp] theorem State.setExcitation_err (c : BitVec 8) (r : BitVec 17) (s : State pw lw) : (s.setExcitation c r).err = s.err := rfl
@[simp] theorem State.setExcitation_mode (c : BitVec 8) (r : BitVec 17) (s : State pw lw) : (s.setExcitation c r).mode = s.mode := rfl
@[simp] theorem State.setExcitation_bitpos (c : BitVec 8) (r : BitVec 17) (s : State pw lw) : (s.setExcitation c r).bitpos = s.bitpos := rfl
@[simp] theorem State.setExcitation_bs (c : BitVec 8) (r : BitVec 17) (s : State pw lw) : (s.setExcitation c r).bs = s.bs := rfl
@[simp] theorem State.setExcitation_bsLen (c : BitVec 8) (r : BitVec 17) (s : State pw lw) : (s.setExcitation c r).bsLen = s.bsLen := rfl
@[simp] theorem State.setExcitation_fq (c : BitVec 8) (r : BitVec 17) (s : State pw lw) : (s.setExcitation c r).fq = s.fq := rfl
@[simp] theorem State.setExcitation_fqIndex (c : BitVec 8) (r : BitVec 17) (s : State pw lw) : (s.setExcitation c r).fqIndex = s.fqIndex := rfl
@[simp] theorem State.setExcitation_decayAppended (c : BitVec 8) (r : BitVec 17) (s : State pw lw) : (s.setExcitation c r).decayAppended = s.decayAppended := rfl
@[simp] theorem State.setExcitation_isReset (c : BitVec 8) (r : BitVec 17) (s : State pw lw) : (s.setExcitation c r).isReset = s.isReset := rfl
@[simp] theorem State.setExcitation_pcm (c : BitVec 8) (r : BitVec 17) (s : State pw lw) : (s.setExcitation c r).pcm = s.pcm := rfl
@[simp] theorem State.setExcitation_statusOut (c : BitVec 8) (r : BitVec 17) (s : State pw lw) : (s.setExcitation c r).statusOut = s.statusOut := rfl
@[simp] theorem State.setExcitation_hostCmds (c : BitVec 8) (r : BitVec 17) (s : State pw lw) : (s.setExcitation c r).hostCmds = s.hostCmds := rfl

/-! ### `State.setDelay` -/

@[simp] theorem State.setDelay_cur (v : Vector (BitVec lw) 11) (s : State pw lw) : (s.setDelay v).cur = s.cur := rfl
@[simp] theorem State.setDelay_tgt (v : Vector (BitVec lw) 11) (s : State pw lw) : (s.setDelay v).tgt = s.tgt := rfl
@[simp] theorem State.setDelay_interpPeriod (v : Vector (BitVec lw) 11) (s : State pw lw) : (s.setDelay v).interpPeriod = s.interpPeriod := rfl
@[simp] theorem State.setDelay_sampleInPeriod (v : Vector (BitVec lw) 11) (s : State pw lw) : (s.setDelay v).sampleInPeriod = s.sampleInPeriod := rfl
@[simp] theorem State.setDelay_pitchCursor (v : Vector (BitVec lw) 11) (s : State pw lw) : (s.setDelay v).pitchCursor = s.pitchCursor := rfl
@[simp] theorem State.setDelay_noiseRegister (v : Vector (BitVec lw) 11) (s : State pw lw) : (s.setDelay v).noiseRegister = s.noiseRegister := rfl
@[simp] theorem State.setDelay_d (v : Vector (BitVec lw) 11) (s : State pw lw) : (s.setDelay v).d = v := rfl
@[simp] theorem State.setDelay_speaking (v : Vector (BitVec lw) 11) (s : State pw lw) : (s.setDelay v).speaking = s.speaking := rfl
@[simp] theorem State.setDelay_err (v : Vector (BitVec lw) 11) (s : State pw lw) : (s.setDelay v).err = s.err := rfl
@[simp] theorem State.setDelay_mode (v : Vector (BitVec lw) 11) (s : State pw lw) : (s.setDelay v).mode = s.mode := rfl
@[simp] theorem State.setDelay_bitpos (v : Vector (BitVec lw) 11) (s : State pw lw) : (s.setDelay v).bitpos = s.bitpos := rfl
@[simp] theorem State.setDelay_bs (v : Vector (BitVec lw) 11) (s : State pw lw) : (s.setDelay v).bs = s.bs := rfl
@[simp] theorem State.setDelay_bsLen (v : Vector (BitVec lw) 11) (s : State pw lw) : (s.setDelay v).bsLen = s.bsLen := rfl
@[simp] theorem State.setDelay_fq (v : Vector (BitVec lw) 11) (s : State pw lw) : (s.setDelay v).fq = s.fq := rfl
@[simp] theorem State.setDelay_fqIndex (v : Vector (BitVec lw) 11) (s : State pw lw) : (s.setDelay v).fqIndex = s.fqIndex := rfl
@[simp] theorem State.setDelay_decayAppended (v : Vector (BitVec lw) 11) (s : State pw lw) : (s.setDelay v).decayAppended = s.decayAppended := rfl
@[simp] theorem State.setDelay_isReset (v : Vector (BitVec lw) 11) (s : State pw lw) : (s.setDelay v).isReset = s.isReset := rfl
@[simp] theorem State.setDelay_pcm (v : Vector (BitVec lw) 11) (s : State pw lw) : (s.setDelay v).pcm = s.pcm := rfl
@[simp] theorem State.setDelay_statusOut (v : Vector (BitVec lw) 11) (s : State pw lw) : (s.setDelay v).statusOut = s.statusOut := rfl
@[simp] theorem State.setDelay_hostCmds (v : Vector (BitVec lw) 11) (s : State pw lw) : (s.setDelay v).hostCmds = s.hostCmds := rfl

/-! ### `State.setBitpos` -/

@[simp] theorem State.setBitpos_cur (v : Nat) (s : State pw lw) : (s.setBitpos v).cur = s.cur := rfl
@[simp] theorem State.setBitpos_tgt (v : Nat) (s : State pw lw) : (s.setBitpos v).tgt = s.tgt := rfl
@[simp] theorem State.setBitpos_interpPeriod (v : Nat) (s : State pw lw) : (s.setBitpos v).interpPeriod = s.interpPeriod := rfl
@[simp] theorem State.setBitpos_sampleInPeriod (v : Nat) (s : State pw lw) : (s.setBitpos v).sampleInPeriod = s.sampleInPeriod := rfl
@[simp] theorem State.setBitpos_pitchCursor (v : Nat) (s : State pw lw) : (s.setBitpos v).pitchCursor = s.pitchCursor := rfl
@[simp] theorem State.setBitpos_noiseRegister (v : Nat) (s : State pw lw) : (s.setBitpos v).noiseRegister = s.noiseRegister := rfl
@[simp] theorem State.setBitpos_d (v : Nat) (s : State pw lw) : (s.setBitpos v).d = s.d := rfl
@[simp] theorem State.setBitpos_speaking (v : Nat) (s : State pw lw) : (s.setBitpos v).speaking = s.speaking := rfl
@[simp] theorem State.setBitpos_err (v : Nat) (s : State pw lw) : (s.setBitpos v).err = s.err := rfl
@[simp] theorem State.setBitpos_mode (v : Nat) (s : State pw lw) : (s.setBitpos v).mode = s.mode := rfl
@[simp] theorem State.setBitpos_bitpos (v : Nat) (s : State pw lw) : (s.setBitpos v).bitpos = v := rfl
@[simp] theorem State.setBitpos_bs (v : Nat) (s : State pw lw) : (s.setBitpos v).bs = s.bs := rfl
@[simp] theorem State.setBitpos_bsLen (v : Nat) (s : State pw lw) : (s.setBitpos v).bsLen = s.bsLen := rfl
@[simp] theorem State.setBitpos_fq (v : Nat) (s : State pw lw) : (s.setBitpos v).fq = s.fq := rfl
@[simp] theorem State.setBitpos_fqIndex (v : Nat) (s : State pw lw) : (s.setBitpos v).fqIndex = s.fqIndex := rfl
@[simp] theorem State.setBitpos_decayAppended (v : Nat) (s : State pw lw) : (s.setBitpos v).decayAppended = s.decayAppended := rfl
@[simp] theorem State.setBitpos_isReset (v : Nat) (s : State pw lw) : (s.setBitpos v).isReset = s.isReset := rfl
@[simp] theorem State.setBitpos_pcm (v : Nat) (s : State pw lw) : (s.setBitpos v).pcm = s.pcm := rfl
@[simp] theorem State.setBitpos_statusOut (v : Nat) (s : State pw lw) : (s.setBitpos v).statusOut = s.statusOut := rfl
@[simp] theorem State.setBitpos_hostCmds (v : Nat) (s : State pw lw) : (s.setBitpos v).hostCmds = s.hostCmds := rfl

/-! ### `State.setFqIndex` -/

@[simp] theorem State.setFqIndex_cur (v : Nat) (s : State pw lw) : (s.setFqIndex v).cur = s.cur := rfl
@[simp] theorem State.setFqIndex_tgt (v : Nat) (s : State pw lw) : (s.setFqIndex v).tgt = s.tgt := rfl
@[simp] theorem State.setFqIndex_interpPeriod (v : Nat) (s : State pw lw) : (s.setFqIndex v).interpPeriod = s.interpPeriod := rfl
@[simp] theorem State.setFqIndex_sampleInPeriod (v : Nat) (s : State pw lw) : (s.setFqIndex v).sampleInPeriod = s.sampleInPeriod := rfl
@[simp] theorem State.setFqIndex_pitchCursor (v : Nat) (s : State pw lw) : (s.setFqIndex v).pitchCursor = s.pitchCursor := rfl
@[simp] theorem State.setFqIndex_noiseRegister (v : Nat) (s : State pw lw) : (s.setFqIndex v).noiseRegister = s.noiseRegister := rfl
@[simp] theorem State.setFqIndex_d (v : Nat) (s : State pw lw) : (s.setFqIndex v).d = s.d := rfl
@[simp] theorem State.setFqIndex_speaking (v : Nat) (s : State pw lw) : (s.setFqIndex v).speaking = s.speaking := rfl
@[simp] theorem State.setFqIndex_err (v : Nat) (s : State pw lw) : (s.setFqIndex v).err = s.err := rfl
@[simp] theorem State.setFqIndex_mode (v : Nat) (s : State pw lw) : (s.setFqIndex v).mode = s.mode := rfl
@[simp] theorem State.setFqIndex_bitpos (v : Nat) (s : State pw lw) : (s.setFqIndex v).bitpos = s.bitpos := rfl
@[simp] theorem State.setFqIndex_bs (v : Nat) (s : State pw lw) : (s.setFqIndex v).bs = s.bs := rfl
@[simp] theorem State.setFqIndex_bsLen (v : Nat) (s : State pw lw) : (s.setFqIndex v).bsLen = s.bsLen := rfl
@[simp] theorem State.setFqIndex_fq (v : Nat) (s : State pw lw) : (s.setFqIndex v).fq = s.fq := rfl
@[simp] theorem State.setFqIndex_fqIndex (v : Nat) (s : State pw lw) : (s.setFqIndex v).fqIndex = v := rfl
@[simp] theorem State.setFqIndex_decayAppended (v : Nat) (s : State pw lw) : (s.setFqIndex v).decayAppended = s.decayAppended := rfl
@[simp] theorem State.setFqIndex_isReset (v : Nat) (s : State pw lw) : (s.setFqIndex v).isReset = s.isReset := rfl
@[simp] theorem State.setFqIndex_pcm (v : Nat) (s : State pw lw) : (s.setFqIndex v).pcm = s.pcm := rfl
@[simp] theorem State.setFqIndex_statusOut (v : Nat) (s : State pw lw) : (s.setFqIndex v).statusOut = s.statusOut := rfl
@[simp] theorem State.setFqIndex_hostCmds (v : Nat) (s : State pw lw) : (s.setFqIndex v).hostCmds = s.hostCmds := rfl

/-! ### `State.markDecay` -/

@[simp] theorem State.markDecay_cur (s : State pw lw) : s.markDecay.cur = s.cur := rfl
@[simp] theorem State.markDecay_tgt (s : State pw lw) : s.markDecay.tgt = s.tgt := rfl
@[simp] theorem State.markDecay_interpPeriod (s : State pw lw) : s.markDecay.interpPeriod = s.interpPeriod := rfl
@[simp] theorem State.markDecay_sampleInPeriod (s : State pw lw) : s.markDecay.sampleInPeriod = s.sampleInPeriod := rfl
@[simp] theorem State.markDecay_pitchCursor (s : State pw lw) : s.markDecay.pitchCursor = s.pitchCursor := rfl
@[simp] theorem State.markDecay_noiseRegister (s : State pw lw) : s.markDecay.noiseRegister = s.noiseRegister := rfl
@[simp] theorem State.markDecay_d (s : State pw lw) : s.markDecay.d = s.d := rfl
@[simp] theorem State.markDecay_speaking (s : State pw lw) : s.markDecay.speaking = s.speaking := rfl
@[simp] theorem State.markDecay_err (s : State pw lw) : s.markDecay.err = s.err := rfl
@[simp] theorem State.markDecay_mode (s : State pw lw) : s.markDecay.mode = s.mode := rfl
@[simp] theorem State.markDecay_bitpos (s : State pw lw) : s.markDecay.bitpos = s.bitpos := rfl
@[simp] theorem State.markDecay_bs (s : State pw lw) : s.markDecay.bs = s.bs := rfl
@[simp] theorem State.markDecay_bsLen (s : State pw lw) : s.markDecay.bsLen = s.bsLen := rfl
@[simp] theorem State.markDecay_fq (s : State pw lw) : s.markDecay.fq = s.fq := rfl
@[simp] theorem State.markDecay_fqIndex (s : State pw lw) : s.markDecay.fqIndex = s.fqIndex := rfl
@[simp] theorem State.markDecay_decayAppended (s : State pw lw) : s.markDecay.decayAppended = true := rfl
@[simp] theorem State.markDecay_isReset (s : State pw lw) : s.markDecay.isReset = s.isReset := rfl
@[simp] theorem State.markDecay_pcm (s : State pw lw) : s.markDecay.pcm = s.pcm := rfl
@[simp] theorem State.markDecay_statusOut (s : State pw lw) : s.markDecay.statusOut = s.statusOut := rfl
@[simp] theorem State.markDecay_hostCmds (s : State pw lw) : s.markDecay.hostCmds = s.hostCmds := rfl

/-! ### `State.installBits` -/

@[simp] theorem State.installBits_cur (l : List Byte) (s : State pw lw) : (s.installBits l).cur = s.cur := rfl
@[simp] theorem State.installBits_tgt (l : List Byte) (s : State pw lw) : (s.installBits l).tgt = s.tgt := rfl
@[simp] theorem State.installBits_interpPeriod (l : List Byte) (s : State pw lw) : (s.installBits l).interpPeriod = s.interpPeriod := rfl
@[simp] theorem State.installBits_sampleInPeriod (l : List Byte) (s : State pw lw) : (s.installBits l).sampleInPeriod = s.sampleInPeriod := rfl
@[simp] theorem State.installBits_pitchCursor (l : List Byte) (s : State pw lw) : (s.installBits l).pitchCursor = s.pitchCursor := rfl
@[simp] theorem State.installBits_noiseRegister (l : List Byte) (s : State pw lw) : (s.installBits l).noiseRegister = s.noiseRegister := rfl
@[simp] theorem State.installBits_d (l : List Byte) (s : State pw lw) : (s.installBits l).d = s.d := rfl
@[simp] theorem State.installBits_speaking (l : List Byte) (s : State pw lw) : (s.installBits l).speaking = true := rfl
@[simp] theorem State.installBits_err (l : List Byte) (s : State pw lw) : (s.installBits l).err = s.err := rfl
@[simp] theorem State.installBits_mode (l : List Byte) (s : State pw lw) : (s.installBits l).mode = .bitstream := rfl
@[simp] theorem State.installBits_bitpos (l : List Byte) (s : State pw lw) : (s.installBits l).bitpos = 0 := rfl
@[simp] theorem State.installBits_bs (l : List Byte) (s : State pw lw) : (s.installBits l).bs = Memory.ofBytes l := rfl
@[simp] theorem State.installBits_bsLen (l : List Byte) (s : State pw lw) : (s.installBits l).bsLen = l.length := rfl
@[simp] theorem State.installBits_fq (l : List Byte) (s : State pw lw) : (s.installBits l).fq = [] := rfl
@[simp] theorem State.installBits_fqIndex (l : List Byte) (s : State pw lw) : (s.installBits l).fqIndex = 0 := rfl
@[simp] theorem State.installBits_decayAppended (l : List Byte) (s : State pw lw) : (s.installBits l).decayAppended = false := rfl
@[simp] theorem State.installBits_isReset (l : List Byte) (s : State pw lw) : (s.installBits l).isReset = s.isReset := rfl
@[simp] theorem State.installBits_pcm (l : List Byte) (s : State pw lw) : (s.installBits l).pcm = s.pcm := rfl
@[simp] theorem State.installBits_statusOut (l : List Byte) (s : State pw lw) : (s.installBits l).statusOut = s.statusOut := rfl
@[simp] theorem State.installBits_hostCmds (l : List Byte) (s : State pw lw) : (s.installBits l).hostCmds = s.hostCmds := rfl

/-! ### `State.installFrames` -/

@[simp] theorem State.installFrames_cur (l : List FrameRecord) (s : State pw lw) : (s.installFrames l).cur = s.cur := rfl
@[simp] theorem State.installFrames_tgt (l : List FrameRecord) (s : State pw lw) : (s.installFrames l).tgt = s.tgt := rfl
@[simp] theorem State.installFrames_interpPeriod (l : List FrameRecord) (s : State pw lw) : (s.installFrames l).interpPeriod = s.interpPeriod := rfl
@[simp] theorem State.installFrames_sampleInPeriod (l : List FrameRecord) (s : State pw lw) : (s.installFrames l).sampleInPeriod = s.sampleInPeriod := rfl
@[simp] theorem State.installFrames_pitchCursor (l : List FrameRecord) (s : State pw lw) : (s.installFrames l).pitchCursor = s.pitchCursor := rfl
@[simp] theorem State.installFrames_noiseRegister (l : List FrameRecord) (s : State pw lw) : (s.installFrames l).noiseRegister = s.noiseRegister := rfl
@[simp] theorem State.installFrames_d (l : List FrameRecord) (s : State pw lw) : (s.installFrames l).d = s.d := rfl
@[simp] theorem State.installFrames_speaking (l : List FrameRecord) (s : State pw lw) : (s.installFrames l).speaking = true := rfl
@[simp] theorem State.installFrames_err (l : List FrameRecord) (s : State pw lw) : (s.installFrames l).err = s.err := rfl
@[simp] theorem State.installFrames_mode (l : List FrameRecord) (s : State pw lw) : (s.installFrames l).mode = .frames := rfl
@[simp] theorem State.installFrames_bitpos (l : List FrameRecord) (s : State pw lw) : (s.installFrames l).bitpos = 0 := rfl
@[simp] theorem State.installFrames_bs (l : List FrameRecord) (s : State pw lw) : (s.installFrames l).bs = [] := rfl
@[simp] theorem State.installFrames_bsLen (l : List FrameRecord) (s : State pw lw) : (s.installFrames l).bsLen = 0 := rfl
@[simp] theorem State.installFrames_fq (l : List FrameRecord) (s : State pw lw) : (s.installFrames l).fq = l := rfl
@[simp] theorem State.installFrames_fqIndex (l : List FrameRecord) (s : State pw lw) : (s.installFrames l).fqIndex = 0 := rfl
@[simp] theorem State.installFrames_decayAppended (l : List FrameRecord) (s : State pw lw) : (s.installFrames l).decayAppended = false := rfl
@[simp] theorem State.installFrames_isReset (l : List FrameRecord) (s : State pw lw) : (s.installFrames l).isReset = s.isReset := rfl
@[simp] theorem State.installFrames_pcm (l : List FrameRecord) (s : State pw lw) : (s.installFrames l).pcm = s.pcm := rfl
@[simp] theorem State.installFrames_statusOut (l : List FrameRecord) (s : State pw lw) : (s.installFrames l).statusOut = s.statusOut := rfl
@[simp] theorem State.installFrames_hostCmds (l : List FrameRecord) (s : State pw lw) : (s.installFrames l).hostCmds = s.hostCmds := rfl

/-! ### `State.pcmWrite` -/

@[simp] theorem State.pcmWrite_cur (v : Int) (s : State pw lw) : (s.pcmWrite v).cur = s.cur := rfl
@[simp] theorem State.pcmWrite_tgt (v : Int) (s : State pw lw) : (s.pcmWrite v).tgt = s.tgt := rfl
@[simp] theorem State.pcmWrite_interpPeriod (v : Int) (s : State pw lw) : (s.pcmWrite v).interpPeriod = s.interpPeriod := rfl
@[simp] theorem State.pcmWrite_sampleInPeriod (v : Int) (s : State pw lw) : (s.pcmWrite v).sampleInPeriod = s.sampleInPeriod := rfl
@[simp] theorem State.pcmWrite_pitchCursor (v : Int) (s : State pw lw) : (s.pcmWrite v).pitchCursor = s.pitchCursor := rfl
@[simp] theorem State.pcmWrite_noiseRegister (v : Int) (s : State pw lw) : (s.pcmWrite v).noiseRegister = s.noiseRegister := rfl
@[simp] theorem State.pcmWrite_d (v : Int) (s : State pw lw) : (s.pcmWrite v).d = s.d := rfl
@[simp] theorem State.pcmWrite_speaking (v : Int) (s : State pw lw) : (s.pcmWrite v).speaking = s.speaking := rfl
@[simp] theorem State.pcmWrite_err (v : Int) (s : State pw lw) : (s.pcmWrite v).err = s.err := rfl
@[simp] theorem State.pcmWrite_mode (v : Int) (s : State pw lw) : (s.pcmWrite v).mode = s.mode := rfl
@[simp] theorem State.pcmWrite_bitpos (v : Int) (s : State pw lw) : (s.pcmWrite v).bitpos = s.bitpos := rfl
@[simp] theorem State.pcmWrite_bs (v : Int) (s : State pw lw) : (s.pcmWrite v).bs = s.bs := rfl
@[simp] theorem State.pcmWrite_bsLen (v : Int) (s : State pw lw) : (s.pcmWrite v).bsLen = s.bsLen := rfl
@[simp] theorem State.pcmWrite_fq (v : Int) (s : State pw lw) : (s.pcmWrite v).fq = s.fq := rfl
@[simp] theorem State.pcmWrite_fqIndex (v : Int) (s : State pw lw) : (s.pcmWrite v).fqIndex = s.fqIndex := rfl
@[simp] theorem State.pcmWrite_decayAppended (v : Int) (s : State pw lw) : (s.pcmWrite v).decayAppended = s.decayAppended := rfl
@[simp] theorem State.pcmWrite_isReset (v : Int) (s : State pw lw) : (s.pcmWrite v).isReset = s.isReset := rfl
@[simp] theorem State.pcmWrite_pcm (v : Int) (s : State pw lw) : (s.pcmWrite v).pcm = s.pcm ++ [BitVec.ofInt 16 v] := rfl
@[simp] theorem State.pcmWrite_statusOut (v : Int) (s : State pw lw) : (s.pcmWrite v).statusOut = s.statusOut := rfl
@[simp] theorem State.pcmWrite_hostCmds (v : Int) (s : State pw lw) : (s.pcmWrite v).hostCmds = s.hostCmds := rfl

/-! ### `State.setStatusOut` -/

@[simp] theorem State.setStatusOut_cur (r : StatusReport) (s : State pw lw) : (s.setStatusOut r).cur = s.cur := rfl
@[simp] theorem State.setStatusOut_tgt (r : StatusReport) (s : State pw lw) : (s.setStatusOut r).tgt = s.tgt := rfl
@[simp] theorem State.setStatusOut_interpPeriod (r : StatusReport) (s : State pw lw) : (s.setStatusOut r).interpPeriod = s.interpPeriod := rfl
@[simp] theorem State.setStatusOut_sampleInPeriod (r : StatusReport) (s : State pw lw) : (s.setStatusOut r).sampleInPeriod = s.sampleInPeriod := rfl
@[simp] theorem State.setStatusOut_pitchCursor (r : StatusReport) (s : State pw lw) : (s.setStatusOut r).pitchCursor = s.pitchCursor := rfl
@[simp] theorem State.setStatusOut_noiseRegister (r : StatusReport) (s : State pw lw) : (s.setStatusOut r).noiseRegister = s.noiseRegister := rfl
@[simp] theorem State.setStatusOut_d (r : StatusReport) (s : State pw lw) : (s.setStatusOut r).d = s.d := rfl
@[simp] theorem State.setStatusOut_speaking (r : StatusReport) (s : State pw lw) : (s.setStatusOut r).speaking = s.speaking := rfl
@[simp] theorem State.setStatusOut_err (r : StatusReport) (s : State pw lw) : (s.setStatusOut r).err = s.err := rfl
@[simp] theorem State.setStatusOut_mode (r : StatusReport) (s : State pw lw) : (s.setStatusOut r).mode = s.mode := rfl
@[simp] theorem State.setStatusOut_bitpos (r : StatusReport) (s : State pw lw) : (s.setStatusOut r).bitpos = s.bitpos := rfl
@[simp] theorem State.setStatusOut_bs (r : StatusReport) (s : State pw lw) : (s.setStatusOut r).bs = s.bs := rfl
@[simp] theorem State.setStatusOut_bsLen (r : StatusReport) (s : State pw lw) : (s.setStatusOut r).bsLen = s.bsLen := rfl
@[simp] theorem State.setStatusOut_fq (r : StatusReport) (s : State pw lw) : (s.setStatusOut r).fq = s.fq := rfl
@[simp] theorem State.setStatusOut_fqIndex (r : StatusReport) (s : State pw lw) : (s.setStatusOut r).fqIndex = s.fqIndex := rfl
@[simp] theorem State.setStatusOut_decayAppended (r : StatusReport) (s : State pw lw) : (s.setStatusOut r).decayAppended = s.decayAppended := rfl
@[simp] theorem State.setStatusOut_isReset (r : StatusReport) (s : State pw lw) : (s.setStatusOut r).isReset = s.isReset := rfl
@[simp] theorem State.setStatusOut_pcm (r : StatusReport) (s : State pw lw) : (s.setStatusOut r).pcm = s.pcm := rfl
@[simp] theorem State.setStatusOut_statusOut (r : StatusReport) (s : State pw lw) : (s.setStatusOut r).statusOut = some r := rfl
@[simp] theorem State.setStatusOut_hostCmds (r : StatusReport) (s : State pw lw) : (s.setStatusOut r).hostCmds = s.hostCmds := rfl

/-! ### `State.dropCommand` -/

@[simp] theorem State.dropCommand_cur (s : State pw lw) : s.dropCommand.cur = s.cur := rfl
@[simp] theorem State.dropCommand_tgt (s : State pw lw) : s.dropCommand.tgt = s.tgt := rfl
@[simp] theorem State.dropCommand_interpPeriod (s : State pw lw) : s.dropCommand.interpPeriod = s.interpPeriod := rfl
@[simp] theorem State.dropCommand_sampleInPeriod (s : State pw lw) : s.dropCommand.sampleInPeriod = s.sampleInPeriod := rfl
@[simp] theorem State.dropCommand_pitchCursor (s : State pw lw) : s.dropCommand.pitchCursor = s.pitchCursor := rfl
@[simp] theorem State.dropCommand_noiseRegister (s : State pw lw) : s.dropCommand.noiseRegister = s.noiseRegister := rfl
@[simp] theorem State.dropCommand_d (s : State pw lw) : s.dropCommand.d = s.d := rfl
@[simp] theorem State.dropCommand_speaking (s : State pw lw) : s.dropCommand.speaking = s.speaking := rfl
@[simp] theorem State.dropCommand_err (s : State pw lw) : s.dropCommand.err = s.err := rfl
@[simp] theorem State.dropCommand_mode (s : State pw lw) : s.dropCommand.mode = s.mode := rfl
@[simp] theorem State.dropCommand_bitpos (s : State pw lw) : s.dropCommand.bitpos = s.bitpos := rfl
@[simp] theorem State.dropCommand_bs (s : State pw lw) : s.dropCommand.bs = s.bs := rfl
@[simp] theorem State.dropCommand_bsLen (s : State pw lw) : s.dropCommand.bsLen = s.bsLen := rfl
@[simp] theorem State.dropCommand_fq (s : State pw lw) : s.dropCommand.fq = s.fq := rfl
@[simp] theorem State.dropCommand_fqIndex (s : State pw lw) : s.dropCommand.fqIndex = s.fqIndex := rfl
@[simp] theorem State.dropCommand_decayAppended (s : State pw lw) : s.dropCommand.decayAppended = s.decayAppended := rfl
@[simp] theorem State.dropCommand_isReset (s : State pw lw) : s.dropCommand.isReset = s.isReset := rfl
@[simp] theorem State.dropCommand_pcm (s : State pw lw) : s.dropCommand.pcm = s.pcm := rfl
@[simp] theorem State.dropCommand_statusOut (s : State pw lw) : s.dropCommand.statusOut = s.statusOut := rfl
@[simp] theorem State.dropCommand_hostCmds (s : State pw lw) : s.dropCommand.hostCmds = s.hostCmds.tail := rfl

/-! ### `State.queueLoad` -/

@[simp] theorem State.queueLoad_cur (l : List Byte) (s : State pw lw) : (s.queueLoad l).cur = s.cur := rfl
@[simp] theorem State.queueLoad_tgt (l : List Byte) (s : State pw lw) : (s.queueLoad l).tgt = s.tgt := rfl
@[simp] theorem State.queueLoad_interpPeriod (l : List Byte) (s : State pw lw) : (s.queueLoad l).interpPeriod = s.interpPeriod := rfl
@[simp] theorem State.queueLoad_sampleInPeriod (l : List Byte) (s : State pw lw) : (s.queueLoad l).sampleInPeriod = s.sampleInPeriod := rfl
@[simp] theorem State.queueLoad_pitchCursor (l : List Byte) (s : State pw lw) : (s.queueLoad l).pitchCursor = s.pitchCursor := rfl
@[simp] theorem State.queueLoad_noiseRegister (l : List Byte) (s : State pw lw) : (s.queueLoad l).noiseRegister = s.noiseRegister := rfl
@[simp] theorem State.queueLoad_d (l : List Byte) (s : State pw lw) : (s.queueLoad l).d = s.d := rfl
@[simp] theorem State.queueLoad_speaking (l : List Byte) (s : State pw lw) : (s.queueLoad l).speaking = false := rfl
@[simp] theorem State.queueLoad_err (l : List Byte) (s : State pw lw) : (s.queueLoad l).err = s.err := rfl
@[simp] theorem State.queueLoad_mode (l : List Byte) (s : State pw lw) : (s.queueLoad l).mode = s.mode := rfl
@[simp] theorem State.queueLoad_bitpos (l : List Byte) (s : State pw lw) : (s.queueLoad l).bitpos = s.bitpos := rfl
@[simp] theorem State.queueLoad_bs (l : List Byte) (s : State pw lw) : (s.queueLoad l).bs = s.bs := rfl
@[simp] theorem State.queueLoad_bsLen (l : List Byte) (s : State pw lw) : (s.queueLoad l).bsLen = s.bsLen := rfl
@[simp] theorem State.queueLoad_fq (l : List Byte) (s : State pw lw) : (s.queueLoad l).fq = s.fq := rfl
@[simp] theorem State.queueLoad_fqIndex (l : List Byte) (s : State pw lw) : (s.queueLoad l).fqIndex = s.fqIndex := rfl
@[simp] theorem State.queueLoad_decayAppended (l : List Byte) (s : State pw lw) : (s.queueLoad l).decayAppended = s.decayAppended := rfl
@[simp] theorem State.queueLoad_isReset (l : List Byte) (s : State pw lw) : (s.queueLoad l).isReset = true := rfl
@[simp] theorem State.queueLoad_pcm (l : List Byte) (s : State pw lw) : (s.queueLoad l).pcm = s.pcm := rfl
@[simp] theorem State.queueLoad_statusOut (l : List Byte) (s : State pw lw) : (s.queueLoad l).statusOut = s.statusOut := rfl
@[simp] theorem State.queueLoad_hostCmds (l : List Byte) (s : State pw lw) : (s.queueLoad l).hostCmds = .load l :: s.hostCmds := rfl

/-! ### `State.raiseIf` -/

@[simp] theorem State.raiseIf_cur (b : Bool) (c : Condition) (s : State pw lw) : (s.raiseIf b c).cur = s.cur := by cases b <;> rfl
@[simp] theorem State.raiseIf_tgt (b : Bool) (c : Condition) (s : State pw lw) : (s.raiseIf b c).tgt = s.tgt := by cases b <;> rfl
@[simp] theorem State.raiseIf_interpPeriod (b : Bool) (c : Condition) (s : State pw lw) : (s.raiseIf b c).interpPeriod = s.interpPeriod := by cases b <;> rfl
@[simp] theorem State.raiseIf_sampleInPeriod (b : Bool) (c : Condition) (s : State pw lw) : (s.raiseIf b c).sampleInPeriod = s.sampleInPeriod := by cases b <;> rfl
@[simp] theorem State.raiseIf_pitchCursor (b : Bool) (c : Condition) (s : State pw lw) : (s.raiseIf b c).pitchCursor = s.pitchCursor := by cases b <;> rfl
@[simp] theorem State.raiseIf_noiseRegister (b : Bool) (c : Condition) (s : State pw lw) : (s.raiseIf b c).noiseRegister = s.noiseRegister := by cases b <;> rfl
@[simp] theorem State.raiseIf_d (b : Bool) (c : Condition) (s : State pw lw) : (s.raiseIf b c).d = s.d := by cases b <;> rfl
@[simp] theorem State.raiseIf_speaking (b : Bool) (c : Condition) (s : State pw lw) : (s.raiseIf b c).speaking = s.speaking := by cases b <;> rfl
@[simp] theorem State.raiseIf_err (b : Bool) (c : Condition) (s : State pw lw) :
    (s.raiseIf b c).err = if b then s.err ||| c.mask else s.err := by cases b <;> rfl
@[simp] theorem State.raiseIf_mode (b : Bool) (c : Condition) (s : State pw lw) : (s.raiseIf b c).mode = s.mode := by cases b <;> rfl
@[simp] theorem State.raiseIf_bitpos (b : Bool) (c : Condition) (s : State pw lw) : (s.raiseIf b c).bitpos = s.bitpos := by cases b <;> rfl
@[simp] theorem State.raiseIf_bs (b : Bool) (c : Condition) (s : State pw lw) : (s.raiseIf b c).bs = s.bs := by cases b <;> rfl
@[simp] theorem State.raiseIf_bsLen (b : Bool) (c : Condition) (s : State pw lw) : (s.raiseIf b c).bsLen = s.bsLen := by cases b <;> rfl
@[simp] theorem State.raiseIf_fq (b : Bool) (c : Condition) (s : State pw lw) : (s.raiseIf b c).fq = s.fq := by cases b <;> rfl
@[simp] theorem State.raiseIf_fqIndex (b : Bool) (c : Condition) (s : State pw lw) : (s.raiseIf b c).fqIndex = s.fqIndex := by cases b <;> rfl
@[simp] theorem State.raiseIf_decayAppended (b : Bool) (c : Condition) (s : State pw lw) : (s.raiseIf b c).decayAppended = s.decayAppended := by cases b <;> rfl
@[simp] theorem State.raiseIf_isReset (b : Bool) (c : Condition) (s : State pw lw) : (s.raiseIf b c).isReset = s.isReset := by cases b <;> rfl
@[simp] theorem State.raiseIf_pcm (b : Bool) (c : Condition) (s : State pw lw) : (s.raiseIf b c).pcm = s.pcm := by cases b <;> rfl
@[simp] theorem State.raiseIf_statusOut (b : Bool) (c : Condition) (s : State pw lw) : (s.raiseIf b c).statusOut = s.statusOut := by cases b <;> rfl
@[simp] theorem State.raiseIf_hostCmds (b : Bool) (c : Condition) (s : State pw lw) : (s.raiseIf b c).hostCmds = s.hostCmds := by cases b <;> rfl

end Sys2Proof.Machine
end

