-- ==== Sys2Proof/Machine/Configured.lean ====
section
/-! DEFINITION. The machine over any configuration (00_scope.md R7: "each is a field of the configuration a model takes as an
argument"). `exec` and `step` are these two on `hw` (Laws/Ops.lean, `exec_eq_execOn`, `step_eq_stepOn`). -/

namespace Sys2Proof.Machine

/-- What an instruction does on configuration `cfg`, whose `PARAM_W` and `LAT_W` are the widths of the state's registers. -/
def execOn (cfg : Config) (i : Instr) (s : State cfg.paramW cfg.latW) : Answer cfg.paramW cfg.latW :=
  match i with
  | .stop => .next (applyStop s)
  | .silence => .next (applySilence s)
  | .repeatFrame e p => .next (takeRepeat cfg e p s)
  | .unvoiced e k => .next (takeUnvoiced cfg e k s)
  | .voiced e p k => .next (takeVoiced cfg e p k s)
  | .values e p k => .next (takeValues e p k s)
  | .reset => resetEngine s
  | .load bytes => afterReset s (loadBits cfg bytes s)
  | .loadFrames frames => afterReset s (loadQueue cfg frames s)
  | .step => afterReset s (stepSample cfg s)
  | .status => afterReset s (.next (s.setStatusOut (s.report cfg)))

/-- One step of the machine on configuration `cfg`. -/
def stepOn (cfg : Config) (s : State cfg.paramW cfg.latW) : Answer cfg.paramW cfg.latW :=
  execOn cfg s.nextCommand.toInstr s.dropCommand

end Sys2Proof.Machine
end

