-- ==== Sys2Proof/Laws/Ops.lean ====
section
/-! SUPPORT. What each shared operation can do, once: provers cite these instead of unfolding the operations. -/

namespace Sys2Proof.Machine

variable {pw lw : Nat}

@[simp] theorem andThen_next (s : State pw lw) (f : State pw lw → Answer pw lw) : andThen (.next s) f = f s := rfl
@[simp] theorem andThen_fault (r : Fault) (f : State pw lw → Answer pw lw) : andThen (.fault r) f = .fault r := rfl
@[simp] theorem andThen_refused (r : Refusal) (f : State pw lw → Answer pw lw) : andThen (.refused r) f = .refused r := rfl

/-- A composed answer is a next state only through a next state. -/
theorem andThen_eq_next {o : Answer pw lw} {f : State pw lw → Answer pw lw} {t : State pw lw} (h : andThen o f = .next t) :
    ∃ s, o = .next s ∧ f s = .next t := by
  cases o with
  | next s => exact ⟨s, rfl, h⟩
  | fault r => cases h
  | refused r => cases h

/-- `clamp` written with min and max (00_scope.md R9). -/
theorem clamp_eq (v lo hi : Int) (h : lo ≤ hi) : clamp v lo hi = max lo (min v hi) := by
  unfold clamp; split
  · omega
  · split <;> omega

/-! ### Operands -/

@[simp] theorem targets_energy (e p : BitVec pw) (k : Fin 10 → BitVec pw) : (targets e p k)[0] = e := rfl
@[simp] theorem targets_pitch (e p : BitVec pw) (k : Fin 10 → BitVec pw) : (targets e p k)[1] = p := rfl

/-- Target `2 + i` of a frame that sets all twelve is its K value `i`. -/
theorem targets_k (e p : BitVec pw) (k : Fin 10 → BitVec pw) (i : Fin 10) : (targets e p k)[2 + i.val] = k i :=
  match i with
  | 0 => rfl | 1 => rfl | 2 => rfl | 3 => rfl | 4 => rfl | 5 => rfl | 6 => rfl | 7 => rfl | 8 => rfl | 9 => rfl

/-- A clamped K index (R233). -/
theorem kIndices_getElem {n : Nat} (k : Vector Int n) (i : Fin n) :
    (kIndices k)[i] = clamp k[i] 0 ((kCard i.val : Int) - 1) := by simp [kIndices]

/-- A clamped K value (R234). -/
theorem kValues_getElem (k : Vector Int 10) (i : Fin 10) : (kValues k)[i] = clamp k[i] (-512) 512 := by simp [kValues]

/-- An effective value (41_interpolator.md R152). -/
theorem interpolate_getElem (cfg : Config) (s : State pw lw) (j : Nat) (h : j < 12) :
    (interpolate cfg s)[j] = interp s.cur[j].toInt s.tgt[j].toInt (shiftOf cfg s.interpPeriod.toNat) := by
  simp [interpolate]

/-! ### The machine is the configured one on its own configuration -/

theorem exec_eq_execOn (i : Instr) (s : State) : exec i s = execOn hw i s := by cases i <;> rfl

theorem step_eq_stepOn (s : State) : step s = stepOn hw s := exec_eq_execOn _ _

/-- RENDER's load and steps are the machine's commands (R240). -/
theorem render_eq (bytes : List Byte) (cap : Int) (s : State) : render bytes cap s = renderWith hw (execLoad bytes) cap s := rfl

theorem renderFrames_eq (frames : List FrameRecord) (cap : Int) (s : State) :
    renderFrames frames cap s = renderWith hw (execLoadFrames frames) cap s := rfl

theorem renderLoop_succ (room : Nat) (s : State) :
    renderLoop hw (room + 1) s = if s.speaking then andThen (execStep s) (renderLoop hw room) else .next s := rfl

/-- The default cap is 240000 samples (R6, R7). -/
theorem renderDefault_eq (bytes : List Byte) (s : State) : renderDefault bytes s = render bytes 240000 s := rfl

theorem renderFramesDefault_eq (frames : List FrameRecord) (s : State) :
    renderFramesDefault frames s = renderFrames frames 240000 s := rfl

/-! ### Applying a record -/

/-- Whatever the record, only `tgt`, `err`, `speaking` and the two counters can change (40_frame_decoder.md R121 to R126,
44_engine.md R233, R234). -/
theorem takeRecord_effect (cfg : Config) (f : FrameRecord) (s : State pw lw) :
    ∃ v e sp ip sip, takeRecord cfg f s =
      { s with tgt := v, err := e, speaking := sp, interpPeriod := ip, sampleInPeriod := sip } := by
  refine ⟨(takeRecord cfg f s).tgt, (takeRecord cfg f s).err, (takeRecord cfg f s).speaking,
    (takeRecord cfg f s).interpPeriod, (takeRecord cfg f s).sampleInPeriod, ?_⟩
  cases f with
  | stop => rfl
  | silence => rfl
  | repeatFrame e p =>
    simp only [takeRecord, takeRepeat]
    generalize (_ || _) = b; cases b <;> rfl
  | unvoiced e k =>
    simp only [takeRecord, takeUnvoiced]
    generalize (_ || _) = b; cases b <;> rfl
  | voiced e p k =>
    simp only [takeRecord, takeVoiced]
    generalize (_ || _) = b; cases b <;> rfl
  | values e p k =>
    simp only [takeRecord, takeValues]
    generalize (_ || _) = b; cases b <;> rfl

/-- A frame instruction is the application of its record on the machine's configuration. -/
theorem exec_toInstr (f : FrameRecord) (s : State) : exec f.toInstr s = .next (takeRecord hw f s) := by cases f <;> rfl

/-- The targets a pulled VOICED record leaves are its decoded values (40_frame_decoder.md R129). -/
theorem takeVoiced_decodedValues (e p : Int) (k : Vector Int 10) (s : State) :
    (takeVoiced hw e p k s).tgt.toList.map BitVec.toInt = decodedValues hw (.voiced e p k) := by
  have he : 0 ≤ energyIndex e ∧ energyIndex e < 16 := by rw [energyIndex, clamp_eq _ _ _ (by omega)]; omega
  have hp : 0 ≤ pitchIndex p ∧ pitchIndex p < 64 := by rw [pitchIndex, clamp_eq _ _ _ (by omega)]; omega
  have hk : ∀ i : Fin 10, (romK hw i.val (kIndices k)[i] : Param).toInt = hw.kTable i.val (kIndices k)[i].toNat := fun i => by
    have hc : ∀ j : Fin 10, 0 < kCard j.val := by decide
    have hci := hc i
    rw [kIndices_getElem, clamp_eq _ _ _ (by omega)]
    exact romK_toInt i.val i.isLt _ (by omega) (by change _ < (kCard i.val : Int); omega)
  have ht : (takeVoiced hw e p k s).tgt.toList.map BitVec.toInt =
      [(romEnergy hw (energyIndex e) : Param).toInt, (romPitch hw (pitchIndex p) : Param).toInt] ++
        List.ofFn fun i : Fin 10 => (romK hw i.val (kIndices k)[i] : Param).toInt := rfl
  rw [ht, romEnergy_toInt _ he.1 he.2, romPitch_toInt _ hp.1 hp.2]
  simp only [hk]; rfl

/-! ### Pulling a frame -/

/-- `Pull` changes only the targets, `err`, `speaking`, the two counters and the cursors of its source (R229 to R232). -/
theorem pull_effect (cfg : Config) (s : State pw lw) :
    ∃ v e sp ip sip bp fi da, pull cfg s =
      { s with
        tgt := v, err := e, speaking := sp, interpPeriod := ip, sampleInPeriod := sip, bitpos := bp, fqIndex := fi
        decayAppended := da } := by
  unfold pull
  split
  · exact ⟨_, _, _, _, _, _, _, _, rfl⟩
  · unfold pullBits
    split
    · exact ⟨_, _, _, _, _, _, _, _, rfl⟩
    · exact ⟨_, _, _, _, _, _, _, _, rfl⟩
    · next f next _ =>
      obtain ⟨v, e, sp, ip, sip, h⟩ := takeRecord_effect cfg f (s.setBitpos next)
      rw [h]; exact ⟨_, _, _, _, _, _, _, _, rfl⟩
  · unfold pullQueue
    split
    · next f _ =>
      obtain ⟨v, e, sp, ip, sip, h⟩ := takeRecord_effect cfg f (s.setFqIndex (s.fqIndex + 1))
      rw [h]; exact ⟨_, _, _, _, _, _, _, _, rfl⟩
    · split <;> exact ⟨_, _, _, _, _, _, _, _, rfl⟩

@[simp] theorem pull_cur (cfg : Config) (s : State pw lw) : (pull cfg s).cur = s.cur := by
  obtain ⟨_, _, _, _, _, _, _, _, h⟩ := pull_effect cfg s; rw [h]
@[simp] theorem pull_pitchCursor (cfg : Config) (s : State pw lw) : (pull cfg s).pitchCursor = s.pitchCursor := by
  obtain ⟨_, _, _, _, _, _, _, _, h⟩ := pull_effect cfg s; rw [h]
@[simp] theorem pull_noiseRegister (cfg : Config) (s : State pw lw) : (pull cfg s).noiseRegister = s.noiseRegister := by
  obtain ⟨_, _, _, _, _, _, _, _, h⟩ := pull_effect cfg s; rw [h]
@[simp] theorem pull_d (cfg : Config) (s : State pw lw) : (pull cfg s).d = s.d := by
  obtain ⟨_, _, _, _, _, _, _, _, h⟩ := pull_effect cfg s; rw [h]
@[simp] theorem pull_mode (cfg : Config) (s : State pw lw) : (pull cfg s).mode = s.mode := by
  obtain ⟨_, _, _, _, _, _, _, _, h⟩ := pull_effect cfg s; rw [h]
@[simp] theorem pull_bs (cfg : Config) (s : State pw lw) : (pull cfg s).bs = s.bs := by
  obtain ⟨_, _, _, _, _, _, _, _, h⟩ := pull_effect cfg s; rw [h]
@[simp] theorem pull_bsLen (cfg : Config) (s : State pw lw) : (pull cfg s).bsLen = s.bsLen := by
  obtain ⟨_, _, _, _, _, _, _, _, h⟩ := pull_effect cfg s; rw [h]
@[simp] theorem pull_fq (cfg : Config) (s : State pw lw) : (pull cfg s).fq = s.fq := by
  obtain ⟨_, _, _, _, _, _, _, _, h⟩ := pull_effect cfg s; rw [h]
@[simp] theorem pull_isReset (cfg : Config) (s : State pw lw) : (pull cfg s).isReset = s.isReset := by
  obtain ⟨_, _, _, _, _, _, _, _, h⟩ := pull_effect cfg s; rw [h]
@[simp] theorem pull_pcm (cfg : Config) (s : State pw lw) : (pull cfg s).pcm = s.pcm := by
  obtain ⟨_, _, _, _, _, _, _, _, h⟩ := pull_effect cfg s; rw [h]
@[simp] theorem pull_statusOut (cfg : Config) (s : State pw lw) : (pull cfg s).statusOut = s.statusOut := by
  obtain ⟨_, _, _, _, _, _, _, _, h⟩ := pull_effect cfg s; rw [h]
@[simp] theorem pull_hostCmds (cfg : Config) (s : State pw lw) : (pull cfg s).hostCmds = s.hostCmds := by
  obtain ⟨_, _, _, _, _, _, _, _, h⟩ := pull_effect cfg s; rw [h]

/-- A pull in BITSTREAM mode (R229). -/
theorem pull_bitstream {cfg : Config} {s : State pw lw} (h : s.mode = .bitstream) : pull cfg s = pullBits cfg s := by
  rw [pull, h]

/-- A pull in FRAMES mode (R229). -/
theorem pull_frames {cfg : Config} {s : State pw lw} (h : s.mode = .frames) : pull cfg s = pullQueue cfg s := by
  rw [pull, h]

/-! ### The counters -/

/-- The two ways the counters advance (44_engine.md R227): inside a frame, or over its end with promotion and a pull. -/
theorem advanceCounters_cases (cfg : Config) (s : State pw lw) :
    (s.sampleInPeriod.toNat = 24 ∧ s.interpPeriod.toNat = 7 ∧
      advanceCounters cfg s = pull cfg (s.setCounters 0 0).promote) ∨
    (s.sampleInPeriod.toNat = 24 ∧ s.interpPeriod.toNat ≠ 7 ∧
      advanceCounters cfg s = s.setCounters (s.interpPeriod.toNat + 1) 0) ∨
    (s.sampleInPeriod.toNat ≠ 24 ∧
      advanceCounters cfg s = s.setCounters s.interpPeriod.toNat (s.sampleInPeriod.toNat + 1)) := by
  unfold advanceCounters samplesPerPeriod periodsPerFrame
  split
  · split
    · left; exact ⟨by omega, by omega, rfl⟩
    · right; left; exact ⟨by omega, by omega, rfl⟩
  · right; right; exact ⟨by omega, rfl⟩

/-! ### The per-sample pipeline -/

/-- A pipeline that ends in a sample writes the excitation registers and the delay line, nothing else (44_engine.md R225). -/
theorem pipeline_eq_ok {cfg : Config} {s t : State pw lw} {v : Int} (h : pipeline cfg s = .ok (v, t)) :
    ∃ d' u, lattice cfg (effK (interpolate cfg s)) s.d
        (driveValue cfg (exciteSample cfg (interpolate cfg s)[1] s) (interpolate cfg s)[0]) = .ok (d', u) ∧
      v = scale (roundClamp cfg u) ∧ t = (exciteState cfg (interpolate cfg s)[1] s).setDelay d' := by
  unfold pipeline at h
  split at h
  · cases h
  · next d' u hl => cases h; exact ⟨d', u, hl, rfl, rfl⟩

/-- The stages write only the elements they own: an element at or past `n` keeps its value. -/
theorem latticeStages_above (cfg : Config) (k : Vector Int 10) :
    ∀ (n : Nat) (hn : n ≤ 10) (d d' : Vector (BitVec lw) 11) (u u' : Int), latticeStages cfg k n hn d u = .ok (d', u') →
      ∀ j (hj : j < 11), n ≤ j → d'[j] = d[j] := by
  intro n
  induction n with
  | zero => intro hn d d' u u' h j hj _; cases h; rfl
  | succ n ih =>
    intro hn d d' u u' h j hj hnj
    rw [latticeStages] at h
    split at h
    · cases h
    · next out dv _ =>
      rw [ih _ _ _ _ _ h j hj (by omega), Vector.getElem_set_ne _ _ (by omega)]

/-- `d[10]` is never written by the lattice step (10_state.md R31). -/
theorem lattice_last {cfg : Config} {k : Vector Int 10} {d d' : Vector (BitVec lw) 11} {u0 u : Int}
    (h : lattice cfg k d u0 = .ok (d', u)) : d'[10] = d[10] := by
  unfold lattice at h
  split at h
  · cases h
  · next d1 u1 hs =>
    cases h
    exact latticeStages_above cfg k 10 (Nat.le_refl 10) d d1 u0 u hs 10 (by decide) (Nat.le_refl 10)

/-! ### The commands -/

/-- The answers of STEP (R224, R226, R264, R292). -/
theorem execStep_cases (s : State) :
    (s.isReset = false ∧ execStep s = .refused .beforeReset) ∨
    (s.isReset = true ∧ s.speaking = false ∧ execStep s = .next (s.pcmWrite 0)) ∨
    (s.isReset = true ∧ s.speaking = true ∧ ∃ i, pipeline hw s = .error i ∧
      execStep s = .fault (.latticeOverflow i (s.raise .latticeOverflow).err)) ∨
    (s.isReset = true ∧ s.speaking = true ∧ ∃ v t, pipeline hw s = .ok (v, t) ∧
      execStep s = .next ((advanceCounters hw t).pcmWrite v)) := by
  unfold execStep afterReset stepSample
  split
  · next hr =>
    right
    split
    · next hs =>
      right
      split
      · next i hp => left; exact ⟨hr, hs, i, hp, rfl⟩
      · next v t hp => right; exact ⟨hr, hs, v, t, hp, rfl⟩
    · next hs => left; exact ⟨hr, by simpa using hs, rfl⟩
  · next hr => left; exact ⟨by simpa using hr, rfl⟩

/-- The answers of LOAD (R222, R236, R292). -/
theorem execLoad_cases (bytes : List Byte) (s : State) :
    (s.isReset = false ∧ execLoad bytes s = .refused .beforeReset) ∨
    (s.isReset = true ∧ s.speaking = true ∧ execLoad bytes s = .refused .loadWhileSpeaking) ∨
    (s.isReset = true ∧ s.speaking = false ∧ execLoad bytes s = .next (pull hw (s.installBits bytes))) := by
  unfold execLoad afterReset loadBits
  split
  · next hr =>
    right
    split
    · next hs => left; exact ⟨hr, hs, rfl⟩
    · next hs => right; exact ⟨hr, by simpa using hs, rfl⟩
  · next hr => left; exact ⟨by simpa using hr, rfl⟩

/-- The answers of LOAD_FRAMES (R223, R236, R292). -/
theorem execLoadFrames_cases (frames : List FrameRecord) (s : State) :
    (s.isReset = false ∧ execLoadFrames frames s = .refused .beforeReset) ∨
    (s.isReset = true ∧ s.speaking = true ∧ execLoadFrames frames s = .refused .loadWhileSpeaking) ∨
    (s.isReset = true ∧ s.speaking = false ∧ execLoadFrames frames s = .next (pull hw (s.installFrames frames))) := by
  unfold execLoadFrames afterReset loadQueue
  split
  · next hr =>
    right
    split
    · next hs => left; exact ⟨hr, hs, rfl⟩
    · next hs => right; exact ⟨hr, by simpa using hs, rfl⟩
  · next hr => left; exact ⟨by simpa using hr, rfl⟩

/-- The answers of STATUS (R235, R292). -/
theorem execStatus_cases (s : State) :
    (s.isReset = false ∧ execStatus s = .refused .beforeReset) ∨
    (s.isReset = true ∧ execStatus s = .next (s.setStatusOut (s.report hw))) := by
  unfold execStatus afterReset
  split
  · next hr => right; exact ⟨hr, rfl⟩
  · next hr => left; exact ⟨by simpa using hr, rfl⟩

end Sys2Proof.Machine
end

