-- ==== Sys2Proof/Laws/Lattice.lean ====
section
/-! SUPPORT. The lattice stages against the stage equations of 43_lattice.md R197, the output path in closed form, and the
pipeline in terms of the two. -/

namespace Sys2Proof.Machine

/-- A value that fits is held exactly by a delay element (R190). -/
theorem delay_toInt (x : Int) (h : FitsDelay x) : (BitVec.ofInt latW x).toInt = x := by
  have h2 : latW = 40 := rfl
  obtain ⟨h0, h1⟩ := h
  rw [BitVec.toInt_ofInt, Int.bmod_eq_of_le] <;> simp only [h2] <;> omega

theorem latMin_latW : latMin latW = -(2 ^ 39) := rfl

theorem latMax_latW : latMax latW = 2 ^ 39 - 1 := rfl

theorem fit_eq_some (x : Int) (h : FitsDelay x) : fit latW x = some x := if_pos h

theorem fit_eq_none (x : Int) (h : ¬ FitsDelay x) : fit latW x = none := if_neg h

/-- The output of stage `n + 1` from its input (R193). -/
theorem stageOut_step (k : Vector Int 10) (d : Vector Delay 11) (u0 : Int) (n : Nat) (hn : n < 10) :
    stageOut k d u0 (10 - n) = stageOut k d u0 (10 - (n + 1)) - k[n] * d[n].toInt / 512 := by
  have h : 10 - n = (10 - (n + 1)) + 1 := by omega
  have h9 : 9 - (10 - (n + 1)) = n := by omega
  conv_lhs => rw [h, stageOut]
  rw [dif_pos (by omega)]
  simp only [h9]

/-- One stage on its stage-equation input: it answers the stage equations if they fit, and nothing otherwise. -/
theorem latticeStage_spec (k : Vector Int 10) (d : Vector Delay 11) (u0 : Int) (n : Nat) (hn : n < 10) :
    (StageFits k d u0 n hn → latticeStage hw latW k[n] d[n].toInt (stageOut k d u0 (10 - (n + 1))) =
      some (stageOut k d u0 (10 - n), stageDelay k d u0 n hn)) ∧
    (¬ StageFits k d u0 n hn → latticeStage hw latW k[n] d[n].toInt (stageOut k d u0 (10 - (n + 1))) = none) := by
  have hd : d[n].toInt + k[n] * stageOut k d u0 (10 - n) / 512 = stageDelay k d u0 n hn := rfl
  unfold latticeStage
  rw [hw_kMul, ← stageOut_step k d u0 n hn]
  constructor
  · intro h
    rw [fit_eq_some _ h.1]
    simp only [hw_kMul]
    rw [hd, fit_eq_some _ h.2]
  · intro h
    by_cases h1 : FitsDelay (stageOut k d u0 (10 - n))
    · rw [fit_eq_some _ h1]
      simp only [hw_kMul]
      rw [hd, fit_eq_none _ fun h2 => h ⟨h1, h2⟩]
    · rw [fit_eq_none _ h1]

/-- Everything the stages can do, once: from the delay line `d` below stage `n + 1`, either every remaining stage fits and
the stage equations are computed, elements at or past `n` kept, or the first remaining stage that fails, the highest, is answered. -/
theorem latticeStages_spec (k : Vector Int 10) (d : Vector Delay 11) (u0 : Int) :
    ∀ (n : Nat) (hn : n ≤ 10) (d1 : Vector Delay 11), (∀ (j : Nat) (hj : j < 11), j < n → d1[j] = d[j]) →
      ((∀ (i : Nat) (h : i < 10), i < n → StageFits k d u0 i h) →
        ∃ d', latticeStages hw k n hn d1 (stageOut k d u0 (10 - n)) = .ok (d', stageOut k d u0 10) ∧
          (∀ (i : Nat) (h : i < 10), i < n → d'[i].toInt = stageDelay k d u0 i h) ∧
          ∀ (j : Nat) (hj : j < 11), n ≤ j → d'[j] = d1[j]) ∧
      ((¬ ∀ (i : Nat) (h : i < 10), i < n → StageFits k d u0 i h) →
        ∃ (i : Nat) (hi : i < n), latticeStages hw k n hn d1 (stageOut k d u0 (10 - n)) = .error i ∧
          ¬ StageFits k d u0 i (by omega) ∧ ∀ (j : Nat) (h : j < 10), i < j → j < n → StageFits k d u0 j h) := by
  intro n
  induction n with
  | zero => intro hn d1 _; exact ⟨fun _ => ⟨d1, rfl, by omega, fun _ _ _ => rfl⟩, fun h => absurd (by omega) h⟩
  | succ n ih =>
    intro hn d1 hd
    have hd1 : d1[n] = d[n] := hd n (by omega) (by omega)
    have hstage := latticeStage_spec k d u0 n (by omega)
    rw [latticeStages, hd1]
    by_cases hg : StageFits k d u0 n (by omega)
    · rw [hstage.1 hg]
      have ih' := ih (by omega) (d1.set n (BitVec.ofInt latW (stageDelay k d u0 n (by omega)))) (by
        intro j hj hjn; rw [Vector.getElem_set_ne _ _ (by omega)]; exact hd j hj (by omega))
      constructor
      · intro hall
        obtain ⟨d', h1, h2, h3⟩ := ih'.1 fun i h hi => hall i h (by omega)
        refine ⟨d', h1, fun i h hi => ?_, fun j hj hnj => ?_⟩
        · by_cases hin : i < n
          · exact h2 i h hin
          · obtain rfl : i = n := by omega
            rw [h3 i (by omega) (by omega)]
            simp [delay_toInt _ hg.2]
        · rw [h3 j hj (by omega), Vector.getElem_set_ne _ _ (by omega)]
      · intro hall
        obtain ⟨i, hi, h, hbad, hgood⟩ := ih'.2 fun hc => hall fun i h hi => by
          by_cases hin : i < n
          · exact hc i h hin
          · obtain rfl : i = n := by omega
            exact hg
        refine ⟨i, by omega, h, hbad, fun j hj hij hjn => ?_⟩
        by_cases hjn' : j < n
        · exact hgood j hj hij hjn'
        · obtain rfl : j = n := by omega
          exact hg
    · rw [hstage.2 hg]
      exact ⟨fun hall => absurd (hall n (by omega) (by omega)) hg, fun _ => ⟨n, by omega, rfl, hg, fun _ _ _ _ => by omega⟩⟩

/-- ROUND-CLAMP then SCALE in closed form (R195, R196): the outer clamp never acts. -/
theorem scale_roundClamp (u : Int) : scale (roundClamp hw u) = 4 * max (-8192) (min ((u + 32768) / 65536) 8191) := by
  unfold scale roundClamp asr
  rw [hw_latFrac, clamp_eq _ _ _ (by omega), clamp_eq _ _ _ (by omega)]
  norm_num
  omega

/-- The pipeline with its driving value named (44_engine.md R225). -/
theorem pipeline_eq (s : State) : pipeline hw s =
    match lattice hw (effK (interpolate hw s)) s.d (driveOf s) with
    | .error i => .error i
    | .ok (d', u) => .ok (scale (roundClamp hw u), (exciteState hw (interpolate hw s)[1] s).setDelay d') := by
  have hd : driveValue hw (exciteSample hw (interpolate hw s)[1] s) (interpolate hw s)[0] = driveOf s := by
    unfold driveValue driveOf; rw [hw_latFrac]; norm_num
  unfold pipeline
  rewrite [hd]
  generalize lattice hw (effK (interpolate hw s)) s.d (driveOf s) = o
  cases o <;> rfl

end Sys2Proof.Machine
end

