-- ==== Sys2Proof/Laws/PerInstr.lean ====
section
/-! SUPPORT. Statements about every instruction as syntax, one lemma per constructor. -/

namespace Sys2Proof.Laws.EncodeShape

open Sys2Proof

/-- What has an encoding is well-formed, and its encoding is as long as one of the four frame lengths (30_encoding.md R91,
R99, R102). -/
def Statement (i : Instr) : Prop :=
  ∀ bits, encode i = some bits → i.wf = true ∧ bits.length ∈ [4, 11, 29, 50]

theorem putBits_length (v : Int) (w : Nat) : (putBits v w).length = w := by simp [putBits]

/-- The four K fields of an UNVOICED frame take 18 bits. -/
theorem putKs_four (k : Vector Int 4) : (putKs k.toList Machine.kWidths).length = 18 := by
  obtain ⟨⟨l⟩, h⟩ := k
  match l, h with
  | [a, b, c, d], _ => simp [putKs, Machine.kWidths, putBits_length]

/-- The ten K fields of a VOICED frame take 39 bits. -/
theorem putKs_ten (k : Vector Int 10) : (putKs k.toList Machine.kWidths).length = 39 := by
  obtain ⟨⟨l⟩, h⟩ := k
  match l, h with
  | [a, b, c, d, e, f, g, i, j, m], _ => simp [putKs, Machine.kWidths, putBits_length]

/-- An encoding comes from an encodable record. -/
theorem encode_eq_some {i : Instr} {bits : List Bool} (h : encode i = some bits) :
    ∃ f, i.frame? = some f ∧ f.wf = true ∧ bits = frameBits f := by
  unfold encode at h
  split at h
  · next f hf =>
    split at h
    · next he =>
      cases h
      exact ⟨f, hf, (Bool.and_eq_true _ _ ▸ he).2, rfl⟩
    · cases h
  · cases h

theorem stop : Statement .stop := by
  intro bits h
  obtain ⟨f, hf, hw, rfl⟩ := encode_eq_some h
  cases hf
  exact ⟨hw, by decide⟩

theorem silence : Statement .silence := by
  intro bits h
  obtain ⟨f, hf, hw, rfl⟩ := encode_eq_some h
  cases hf
  exact ⟨hw, by decide⟩

theorem repeatFrame (e p : Int) : Statement (.repeatFrame e p) := by
  intro bits h
  obtain ⟨f, hf, hw, rfl⟩ := encode_eq_some h
  cases hf
  exact ⟨hw, by simp [frameBits, putBits_length]⟩

theorem unvoiced (e : Int) (k : Vector Int 4) : Statement (.unvoiced e k) := by
  intro bits h
  obtain ⟨f, hf, hw, rfl⟩ := encode_eq_some h
  cases hf
  exact ⟨hw, by simp [frameBits, putBits_length, putKs_four]⟩

theorem voiced (e p : Int) (k : Vector Int 10) : Statement (.voiced e p k) := by
  intro bits h
  obtain ⟨f, hf, hw, rfl⟩ := encode_eq_some h
  cases hf
  exact ⟨hw, by simp [frameBits, putBits_length, putKs_ten]⟩

theorem values (e p : Int) (k : Vector Int 10) : Statement (.values e p k) := by
  intro bits h
  simp [encode, Instr.frame?, FrameRecord.encodable, FrameRecord.hasBits] at h

theorem reset : Statement .reset := by intro bits h; cases h

theorem load (bytes : List Byte) : Statement (.load bytes) := by intro bits h; cases h

theorem loadFrames (frames : List FrameRecord) : Statement (.loadFrames frames) := by intro bits h; cases h

theorem step : Statement .step := by intro bits h; cases h

theorem status : Statement .status := by intro bits h; cases h

end Sys2Proof.Laws.EncodeShape
end

