-- ==== Sys2Proof/Tests/Slice0.lean ====
section
/-! SUPPORT. Small tests, their expected results from spec/95_test_vectors.md or computed by hand from the rules, and a
witness for the hypotheses of every obligation. -/

namespace Sys2Proof.Tests

open Sys2Proof Sys2Proof.Machine

/-! ### Helpers -/

/-- The answer is a next state. -/
def completes : Answer → Bool
  | .next _ => true
  | .fault _ => false
  | .refused _ => false

/-- A property of the next state; false where there is none. -/
def after {pw lw : Nat} (a : Answer pw lw) (p : State pw lw → Bool) : Bool :=
  match a with
  | .next t => p t
  | .fault _ => false
  | .refused _ => false

/-- The fault of an answer that is one. -/
def faultOf : Answer → Option Fault
  | .next _ => none
  | .fault r => some r
  | .refused _ => none

theorem next_of_completes {a : Answer} (h : completes a = true) : ∃ t, a = .next t := by
  cases a with
  | next t => exact ⟨t, rfl⟩
  | fault r => cases h
  | refused r => cases h

/-- A bank of parameter registers with the given energy, pitch and K1, the other K's 0. -/
def bank (e p k1 : Param) : Vector Param 12 := #v[e, p, k1, 0#11, 0#11, 0#11, 0#11, 0#11, 0#11, 0#11, 0#11, 0#11]

/-- A delay line with the given values. -/
def delays (v : Vector Int 11) : Vector Delay 11 := Vector.ofFn fun i => BitVec.ofInt 40 v[i]

/-- A delay line with the given `d[0]`, the rest 0. -/
def line (d0 : Delay) : Vector Delay 11 := (Vector.replicate 11 0#40).set 0 d0

/-- A silent speaking engine at the start of a frame. -/
def quiet : State := { State.reset with speaking := true, mode := .frames }

/-- A speaking engine at the given place in a frame, loud and unvoiced, with `k1 = -512` (600H in 11 bits) and the given `d[0]`. -/
def loud (ip : BitVec 3) (sip : BitVec 5) (d0 : Delay) : State :=
  { State.reset with
    speaking := true, mode := .frames, interpPeriod := ip, sampleInPeriod := sip
    cur := bank 114#11 0#11 0x600#11, tgt := bank 114#11 0#11 0x600#11, d := line d0 }

/-- An idle engine whose counters do not stand at 0. -/
def midway : State := { State.reset with interpPeriod := 3#3, sampleInPeriod := 4#5 }

/-- A speaking engine with pitch 159 whose cursor stands past the chirp. -/
def voicedPast : State :=
  { State.reset with
    speaking := true, mode := .frames, cur := bank 0#11 159#11 0#11, tgt := bank 0#11 159#11 0#11, pitchCursor := 158#8 }

/-- A speaking engine at a frame end that reads the given bytes from the given bit address. -/
def endOf (bytes : List Byte) (pos : Nat) : State :=
  { State.reset with
    speaking := true, mode := .bitstream, interpPeriod := 7#3, sampleInPeriod := 24#5, bs := Memory.ofBytes bytes
    bsLen := bytes.length, bitpos := pos }

/-- The VOICED example of 95_test_vectors.md section 2.2. -/
def voicedK : Vector Int 10 := #v[16, 16, 8, 8, 8, 8, 8, 4, 4, 4]

/-- The UNVOICED example of 95_test_vectors.md section 2.2. -/
def unvoicedK : Vector Int 4 := #v[24, 10, 8, 6]

/-- A stream of 40 bits with no STOP: REPEAT(3,5), then UNVOICED(7, [24,10,8,6]) up to its last bit. -/
def fortyBits : List Byte := [0xB3#8, 0x38#8, 0x00#8, 0x56#8, 0x68#8]

/-- The test configuration CFG-T of 95_test_vectors.md section 1. -/
def cfgT : Config where
  energyTable i := [0, 1, 2, 3, 4, 6, 8, 11, 16, 23, 33, 47, 63, 85, 114, 0].getD i 0
  pitchTable i :=
    ([0, 15, 16, 17, 18, 19, 20, 21, 22, 23, 24, 25, 26, 27, 28, 29] ++
      [30, 31, 32, 33, 34, 35, 36, 37, 38, 39, 40, 41, 42, 44, 46, 48] ++
      [50, 52, 53, 56, 58, 60, 62, 65, 68, 70, 72, 76, 78, 80, 84, 86] ++
      [91, 94, 98, 101, 105, 109, 114, 118, 122, 127, 132, 137, 142, 148, 153, 159]).getD i 0
  kTable t i :=
    ([[-501, -498, -497, -495, -493, -491, -488, -482, -478, -474, -469, -464, -459, -452, -445, -437,
        -412, -380, -339, -288, -227, -158, -81, -1, 80, 157, 226, 287, 337, 379, 411, 436],
      [-328, -303, -274, -244, -211, -175, -138, -99, -59, -18, 24, 64, 105, 143, 180, 215,
        248, 278, 306, 331, 354, 374, 392, 408, 422, 435, 445, 455, 463, 470, 476, 506],
      [-441, -387, -333, -279, -225, -171, -117, -63, -9, 45, 98, 152, 206, 260, 314, 368],
      [-328, -273, -217, -161, -106, -50, 5, 61, 116, 172, 228, 283, 339, 394, 450, 506],
      [-328, -282, -235, -189, -142, -96, -50, -3, 43, 90, 136, 182, 229, 275, 322, 368],
      [-256, -212, -168, -123, -79, -35, 10, 54, 98, 143, 187, 232, 276, 320, 365, 409],
      [-308, -260, -212, -164, -117, -69, -21, 27, 75, 122, 170, 218, 266, 314, 361, 409],
      [-256, -161, -66, 29, 124, 219, 314, 409],
      [-256, -176, -96, -15, 65, 146, 226, 307],
      [-205, -132, -59, 14, 87, 160, 234, 307]].getD t []).getD i 0
  chirpTable i :=
    ([0, 40, 90, 127, 100, 50, 0, -50, -100, -128, -90, -40, 0, 30, 60, 80, 60, 30, 0, -30, -60, -80, -60, -30] ++
      [0, 20, 40, 50, 40, 20, 0, -20, -40, -50, -40, -20, 0, 10, 20, 25, 20, 10, 0, -10, -20, -25, -20, -10] ++
      [0, 5, 10, 5, 0]).getD i 0
  chirpLen := 53
  interpPhase := 1
  lfsrFreeRun := false
  latFrac := 16
  latW := 40
  kMul := kMulFloor
  blThreshold := 8
  cap := 240000
  paramW := 11

/-! ### WellFormed: an ill-formed term for each check -/

theorem test_wf_repeat_energy_low : (Instr.repeatFrame 0 5).wf = false := by decide
theorem test_wf_repeat_energy_high : (Instr.repeatFrame 15 5).wf = false := by decide
theorem test_wf_repeat_pitch : (Instr.repeatFrame 3 (-1)).wf = false ∧ (Instr.repeatFrame 3 64).wf = false := by decide
theorem test_wf_unvoiced_energy : (Instr.unvoiced 0 unvoicedK).wf = false ∧ (Instr.unvoiced 15 unvoicedK).wf = false := by
  decide
theorem test_wf_unvoiced_k : (Instr.unvoiced 7 #v[24, 10, 16, 6]).wf = false ∧
    (Instr.unvoiced 7 #v[-1, 10, 8, 6]).wf = false := by decide
theorem test_wf_voiced_energy : (Instr.voiced 0 30 voicedK).wf = false ∧ (Instr.voiced 15 30 voicedK).wf = false := by decide
theorem test_wf_voiced_pitch : (Instr.voiced 8 0 voicedK).wf = false ∧ (Instr.voiced 8 64 voicedK).wf = false := by decide
theorem test_wf_voiced_k : (Instr.voiced 8 30 #v[16, 16, 8, 8, 8, 8, 8, 4, 4, 8]).wf = false := by decide
theorem test_wf_values_energy : (Instr.values 115 0 (Vector.replicate 10 0)).wf = false ∧
    (Instr.values (-1) 0 (Vector.replicate 10 0)).wf = false := by decide
theorem test_wf_values_pitch : (Instr.values 0 160 (Vector.replicate 10 0)).wf = false ∧
    (Instr.values 0 (-1) (Vector.replicate 10 0)).wf = false := by decide
theorem test_wf_values_k : (Instr.values 0 0 #v[-513, 0, 0, 0, 0, 0, 0, 0, 0, 0]).wf = false ∧
    (Instr.values 0 0 #v[0, 0, 0, 0, 0, 0, 0, 0, 0, 513]).wf = false := by decide
theorem test_wf_accepts : (Instr.voiced 8 30 voicedK).wf = true ∧ (Instr.unvoiced 7 unvoicedK).wf = true ∧
    (Instr.repeatFrame 14 0).wf = true ∧ (Instr.values 114 159 (Vector.replicate 10 512)).wf = true := by decide

/-! ### Decoding: words written out from 30_encoding.md R90, R91 -/

/-- Energy 1111. -/
theorem test_decode_stop : decodeTableWord 4 0b1111 = some .stop := by decide
/-- Energy 0000. -/
theorem test_decode_silence : decodeTableWord 4 0b0000 = some .silence := by decide
/-- Pitch 010100, repeat 1, energy 0110. -/
theorem test_decode_repeat : decodeTableWord 11 0b01010010110 = some (.repeatFrame 6 20) := by decide
/-- k4 0110, k3 1000, k2 01010, k1 11000, pitch 000000, repeat 0, energy 0111. -/
theorem test_decode_unvoiced : decodeTableWord 29 0b01101000010101100000000000111 = some (.unvoiced 7 unvoicedK) := by decide
/-- k10..k8 100, k7..k3 1000, k2 and k1 10000, pitch 011110, repeat 0, energy 1000. -/
theorem test_decode_voiced :
    decodeTableWord 50 0b10010010010001000100010001000100001000001111001000 = some (.voiced 8 30 voicedK) := by decide
/-- Every K field in its own place: k1..k10 = 1, 2, 3, 4, 5, 6, 7, 1, 2, 3. -/
theorem test_decode_voiced_fields :
    decodeTableWord 50 0b01101000101110110010101000011000100000100000100001 =
      some (.voiced 1 1 #v[1, 2, 3, 4, 5, 6, 7, 1, 2, 3]) := by decide
/-- Energy 0 wins over the repeat bit (R94). -/
theorem test_decode_priority : decodeTableWord 11 0b01010010000 = some .silence := by decide
/-- 95_test_vectors.md 2.2: `B3 00` is REPEAT, SILENCE, then malformed. -/
theorem test_decodeAll_malformed : decodeAll [0xB3#8, 0x00#8] = ([.repeatFrame 3 5, .silence, .stop], true) := by decide
/-- 95_test_vectors.md 2.2: 40 bits and no STOP end cleanly. -/
theorem test_decodeAll_clean : decodeAll fortyBits = ([.repeatFrame 3 5, .unvoiced 7 unvoicedK], false) := by decide
/-- 95_test_vectors.md 2.2: `Encode([REPEAT(6,20)])` is `96 7A`. -/
theorem test_encode_repeat : encodeStream [.repeatFrame 6 20] = some [0x96#8, 0x7A#8] := by decide
/-- 95_test_vectors.md 2.2: the VOICED example with its STOP. -/
theorem test_encode_voiced : encodeStream [.voiced 8 30 voicedK, .stop] =
    some [0xC8#8, 0x83#8, 0x10#8, 0x11#8, 0x11#8, 0x49#8, 0x3E#8] := by decide
/-- A K index of 8 does not fit `K_TABLE[9]` (D33). -/
theorem test_encode_refuses : encodeStream [.voiced 8 30 #v[16, 16, 8, 8, 8, 8, 8, 4, 4, 8]] = none := by decide
/-- 95_test_vectors.md 2.1: `80 01`, `ReadBits(7,2)`. -/
theorem test_readBits : (Memory.ofBytes [0x80#8, 0x01#8]).readBits 7 2 = 3 := by decide
/-- R65: -2 as a sample is `FE FF`. -/
theorem test_sampleBytes : sampleBytes (-2#16) = [0xFE#8, 0xFF#8] := by decide

/-! ### The pipeline -/

/-- 95_test_vectors.md 2.3: from -412 to 248 by phase. -/
theorem test_interp : (List.range 8).map (fun p => interp (-412) 248 (shiftOf hw p)) =
    [-330, -330, -330, -247, -247, -82, -82, 248] := by decide
/-- 95_test_vectors.md 2.4: single updates. -/
theorem test_lfsr : lfsrNext 0x1FFFF#17 = 0x0FFFF#17 ∧ lfsrNext 0x00008#17 = 0x10004#17 ∧ lfsrNext 0x00009#17 = 0x00004#17 ∧
    lfsrNext 0x12345#17 = 0x191A2#17 := by decide
/-- 95_test_vectors.md 2.4: the cursor wraps when the pitch is reached or has fallen below it. -/
theorem test_cursor : advanceCursor 5 4#8 = 0#8 ∧ advanceCursor 23 30#8 = 0#8 ∧ advanceCursor 159 157#8 = 158#8 ∧
    advanceCursor 159 158#8 = 0#8 := by decide
/-- 95_test_vectors.md 2.5. -/
theorem test_kMul : kMulFloor (-412) 956301312 = -769523712 ∧ kMulFloor 1 (-1) = -1 ∧ kMulFloor (-511) 65536 = -65408 := by
  decide
/-- 95_test_vectors.md 2.5, L6. -/
theorem test_lattice_L6 : lattice hw #v[1, -1, 511, -511, 3, -3, 256, -256, 512, -512]
    (delays #v[3, -3, 65536, -65536, 1, -1, 32768, -32768, 511, -511, 0]) 0 =
    .ok (delays #v[-164606, -319, 318, -98749, 33468, -197, 196, 15873, -24065, -511, 0],
      -164606) := by decide
/-- 95_test_vectors.md 2.5: ties go up. -/
theorem test_round : roundClamp hw 32768 = 1 ∧ roundClamp hw (-32768) = 0 ∧ roundClamp hw (-98304) = -1 := by decide

/-! ### One step of each instruction -/

/-- R122. -/
theorem test_stop : after (exec .stop (loud 3#3 4#5 0#40)) (fun t => !t.speaking && t.tgt[0] == 114#11) = true := by decide
/-- R123: counters restart, targets go to 0, `cur` stays. -/
theorem test_silence : after (exec .silence (loud 3#3 4#5 0#40)) (fun t =>
    t.tgt == Vector.replicate 12 0#11 && t.interpPeriod == 0#3 && t.sampleInPeriod == 0#5 && t.cur[0] == 114#11) = true := by
  decide
/-- R124: the K targets stay. -/
theorem test_repeat : after (exec (.repeatFrame 3 0) (loud 3#3 4#5 0#40)) (fun t =>
    t.tgt[1] == 0#11 && t.tgt[2] == 0x600#11 && t.interpPeriod == 3#3 && t.err == 0#4) = true := by decide
/-- R125: the pitch target and K5..K10 are 0. -/
theorem test_unvoiced : after (exec (.unvoiced 7 unvoicedK) quiet) (fun t => t.tgt[1] == 0#11 && t.tgt[6] == 0#11 &&
    t.tgt[11] == 0#11) = true := by decide
/-- R233: out-of-range indices raise bit 2 and the frame still completes. -/
theorem test_voiced_clamped : after (exec (.voiced 17 70 #v[40, 40, 20, 20, 20, 20, 20, 9, 9, 9]) quiet) (fun t =>
    t.err == 4#4) = true := by decide
/-- 95_test_vectors.md 2.6: `VALUES(200, 300, [-600, 600, 1, ..., 8])`. -/
theorem test_values_clamped : after (exec (.values 200 300 #v[-600, 600, 1, 2, 3, 4, 5, 6, 7, 8]) quiet) (fun t =>
    t.tgt == #v[114#11, 159#11, 0x600#11, 512#11, 1#11, 2#11, 3#11, 4#11, 5#11, 6#11, 7#11, 8#11] && t.err == 4#4) = true := by
  decide
/-- 95_test_vectors.md 2.6: pitch 7 is accepted in a value frame. -/
theorem test_values_pitch : after (exec (.values 8 7 (Vector.replicate 10 0)) quiet) (fun t => t.tgt[1] == 7#11 && t.err == 0#4)
    = true := by decide
/-- 95_test_vectors.md 2.7. -/
theorem test_reset : after (exec .reset (loud 3#3 4#5 5#40)) (fun t => t == State.reset) = true := by decide
/-- 95_test_vectors.md section 3, S1: after LOAD of a STOP the engine does not speak, `bitpos = 4`. -/
theorem test_load_stop : after (exec (.load [0x0F#8]) State.reset) (fun t => !t.speaking && t.bitpos == 4 && t.err == 0#4) = true := by
  decide
/-- 95_test_vectors.md 2.6: a truncated VOICED frame. -/
theorem test_load_malformed : after (exec (.load [0xC8#8, 0x83#8, 0x10#8, 0x11#8, 0x11#8, 0x49#8]) State.reset) (fun t =>
    !t.speaking && t.bitpos == 0 && t.err == 1#4 && t.tgt == Vector.replicate 12 0#11) = true := by decide
/-- R232: an empty queue gets the decay frame. -/
theorem test_loadFrames_empty : after (exec (.loadFrames []) State.reset) (fun t => t.speaking && t.decayAppended && t.fqIndex == 0)
    = true := by decide
/-- R223: a first record STOP ends speaking at once. -/
theorem test_loadFrames_stop : after (exec (.loadFrames [.stop]) State.reset) (fun t => !t.speaking && t.fqIndex == 1 &&
    !t.decayAppended) = true := by decide
/-- R151, R176, R191, R195, R196 by hand: energy 14 of 114 in sub-period 0, noise +64, K 0: 64 × 14 × 4 = 3584. -/
theorem test_step_first : after (andThen (exec (.loadFrames [.values 114 0 (Vector.replicate 10 0)]) State.reset) (exec .step))
    (fun t => t.pcm == [3584#16] && t.noiseRegister == 0x0FFFF#17 && t.sampleInPeriod == 1#5) = true := by decide
/-- R227, R228, R230: the last sample of a frame promotes and pulls the next SILENCE: `bitpos` 4 to 8. -/
theorem test_step_frame_end : after (exec .step (endOf [0x00#8] 4)) (fun t =>
    t.bitpos == 8 && t.interpPeriod == 0#3 && t.sampleInPeriod == 0#5 && t.pcm == [0#16]) = true := by decide
/-- R35, R235: two bytes and the cursor at bit 9: no byte is left. -/
theorem test_status : after (exec .status (endOf [0xC8#8, 0x83#8] 9)) (fun t =>
    (t.statusOut.map fun r => (r.talkStatus, r.bufferEmpty, r.err)) == some (true, true, 0#4)) = true := by decide
/-- R264: a stage output above `2^39 - 1` faults at stage 1 (index 0) with bit 3 set. -/
theorem test_step_overflow : faultOf (exec .step (loud 0#3 0#5 0x7FFFFFFFFF#40)) = some (.latticeOverflow 0 8#4) := by decide

/-! ### The configuration (00_scope.md R7) -/

/-- 95_test_vectors.md 2.2, Apply under CFG-T. -/
theorem test_cfgT_voiced : after (execOn cfgT (.voiced 8 30 voicedK) quiet) (fun t =>
    t.tgt.toList.map BitVec.toInt == [16, 46, -412, 248, -9, 116, 43, 98, 75, 124, 65, 87]) = true := by decide
/-- 95_test_vectors.md 2.2, Apply under CFG-T. -/
theorem test_cfgT_unvoiced : after (execOn cfgT (.unvoiced 7 unvoicedK) quiet) (fun t =>
    t.tgt.toList.map BitVec.toInt == [11, 0, 80, 24, -9, 5, 0, 0, 0, 0, 0, 0]) = true := by decide
/-- 95_test_vectors.md section 3, S3: samples 0 and 1 are 0 and 320. -/
theorem test_cfgT_S3 : after (andThen (andThen
    (execOn cfgT (.load [0xC8#8, 0x83#8, 0x10#8, 0x11#8, 0x11#8, 0x49#8, 0x3E#8]) State.reset) (stepOn cfgT)) (stepOn cfgT))
    (fun t => t.pcm == [0#16, 320#16] && t.bitpos == 50) = true := by decide
/-- 95_test_vectors.md 2.6: with `BL_THRESHOLD = 8`, 6 bytes left are low, not empty. -/
theorem test_cfgT_status : after (execOn cfgT .status { quiet with bsLen := 13, bitpos := 50 }) (fun t =>
    t.statusOut == some { talkStatus := true, bufferLow := true, bufferEmpty := false, err := 0#4 }) = true := by decide
/-- 95_test_vectors.md 2.3, the column of `INTERP_PHASE = 0`. -/
theorem test_phase_zero : (List.range 8).map (fun p => interp 0 114 (shiftOf { cfgT with interpPhase := 0 } p)) =
    [114, 14, 14, 14, 28, 28, 57, 57] := by decide
/-- R190, R194: the range of `Fit` at `LAT_W` 8, 40 and 48. -/
theorem test_fit : fit 8 127 = some 127 ∧ fit 8 128 = none ∧ fit 8 (-129) = none ∧ fit 40 (2 ^ 39 - 1) = some (2 ^ 39 - 1) ∧
    fit 40 (2 ^ 39) = none ∧ fit 48 (2 ^ 39) = some (2 ^ 39) := by decide
/-- The sample of `test_step_overflow` on a machine with `LAT_W = 48`: it fits, `U = 64 × 114 × 2^16 + 2^39 - 1`. -/
theorem test_latW : after (execOn { cfgT with latW := 48 } .step
    { State.resetOf 11 48 with
      speaking := true, mode := .frames, cur := bank 114#11 0#11 0x600#11, tgt := bank 114#11 0#11 0x600#11
      d := (Vector.replicate 11 0#48).set 0 0x7FFFFFFFFF#48 })
    (fun t => t.d[0].toInt == 550233964543 && t.pcm == [32764#16]) = true := by decide
/-- R20: what a register of `PARAM_W` bits holds: -512 and 512 in 11 bits, 1024 cut by 11 and held by 12. -/
theorem test_paramW : (toParam (-512) : BitVec 11).toInt = -512 ∧ (toParam 512 : BitVec 11).toInt = 512 ∧
    (toParam 1024 : BitVec 11).toInt = -1024 ∧ (toParam 1024 : BitVec 12).toInt = 1024 := by decide
/-- R7, R240: the default cap is the configuration's: with `CAP = 1` a SILENCE is cut after one sample. -/
theorem test_capOn : after (renderDefaultOn { cfgT with cap := 1 } [0xF0#8] (State.resetOf 11 40)) (fun t =>
    t.pcm == [0#16] && t.speaking && t.err == 2#4) = true := by decide
/-- R129 with the clamps of R233: 95_test_vectors.md 2.6, `VOICED(17, 70, [40,40,20,20,20,20,20,9,9,9])` under CFG-T. -/
theorem test_decodedValues : decodedValues cfgT (.voiced 17 70 #v[40, 40, 20, 20, 20, 20, 20, 9, 9, 9]) =
    [0, 159, 436, 506, 368, 506, 368, 409, 409, 409, 307, 307] := by decide
/-- R240: RENDER with no cap given; S1 gives no sample. -/
theorem test_renderDefault : after (renderDefault [0x0F#8] State.reset) (fun t => t.pcm == [] && !t.speaking && t.err == 0#4) =
    true := by decide

/-! ### Witnesses for the hypotheses of the obligations -/

/-- Energy 114, pitch 0, `d[0]` large: the sample fits. -/
theorem witness_sampleFits (ip : BitVec 3) (hi : ip = 6#3 ∨ ip = 7#3) : SampleFits (loud ip 24#5 0x7FF00000#40) := by
  rcases hi with rfl | rfl <;> simp only [SampleFits, LatticeFits, StageFits, FitsDelay] <;> decide

/-- The same with `d[0] = 2^39 - 1`: stage 1 does not fit. -/
theorem witness_not_sampleFits : ¬ SampleFits (loud 0#3 0#5 0x7FFFFFFFFF#40) := by
  simp only [SampleFits, LatticeFits, StageFits, FitsDelay]; decide

theorem witness_quiet_fits : SampleFits quiet := by simp only [SampleFits, LatticeFits, StageFits, FitsDelay]; decide

/-- `LatticeComputesStageEquations`: both clauses; stage 10, the highest, just fits and just does not. -/
theorem witness_lattice :
    LatticeFits (Vector.replicate 10 0) (Vector.replicate 11 0#40) (2 ^ 39 - 1) ∧
    ¬ LatticeFits (Vector.replicate 10 0) (Vector.replicate 11 0#40) (2 ^ 39) := by
  simp only [LatticeFits, StageFits, FitsDelay]; decide

/-- `ZeroCoefficientsShift`: both ends of the range. -/
theorem witness_fitsDelay : FitsDelay (2 ^ 39 - 1) ∧ FitsDelay (-(2 ^ 39)) := by simp only [FitsDelay]; decide

/-- `CommandsBeforeResetRefused`. -/
theorem witness_beforeReset : ({ State.reset with isReset := false } : State).isReset = false := rfl

/-- `RepeatSetsEnergyAndPitch`, `UnvoicedSetsTargets`, `VoicedSetsTargets`: the top K indices; energy 0 and 15 and pitch 0
and 63 are the ends of their ranges. -/
theorem witness_indices : kIndicesOk #v[31, 31, 15, 15] = true ∧ kIndicesOk #v[31, 31, 15, 15, 15, 15, 15, 7, 7, 7] = true ∧
    kIndicesOk (Vector.replicate 4 0) = true ∧ kIndicesOk (Vector.replicate 10 0) = true := by decide

/-- `OutOfRangeIndicesClamped`: one index just outside in each clause, with the clamped indices. -/
theorem witness_outOfRange :
    (¬((0 ≤ (16 : Int) ∧ (16 : Int) ≤ 15) ∧ (0 ≤ (0 : Int) ∧ (0 : Int) ≤ 63)) ∧
      ¬((0 ≤ (0 : Int) ∧ (0 : Int) ≤ 15) ∧ (0 ≤ (-1 : Int) ∧ (-1 : Int) ≤ 63))) ∧
    (¬((0 ≤ (0 : Int) ∧ (0 : Int) ≤ 15) ∧ kIndicesOk #v[32, 0, 0, 16] = true) ∧
      ∀ i : Fin 4, (#v[31, 0, 0, 15] : Vector Int 4)[i] =
        max 0 (min (#v[32, 0, 0, 16] : Vector Int 4)[i] ((kCard i.val : Int) - 1))) ∧
    (¬((0 ≤ (0 : Int) ∧ (0 : Int) ≤ 15) ∧ (0 ≤ (0 : Int) ∧ (0 : Int) ≤ 63) ∧
        kIndicesOk #v[0, -1, 0, 0, 0, 0, 0, 8, 0, 0] = true) ∧
      ∀ i : Fin 10, (#v[0, 0, 0, 0, 0, 0, 0, 7, 0, 0] : Vector Int 10)[i] =
        max 0 (min (#v[0, -1, 0, 0, 0, 0, 0, 8, 0, 0] : Vector Int 10)[i] ((kCard i.val : Int) - 1))) := by decide

/-- `FrameInstructionsFrame`: a well-formed record of each kind that has a hypothesis. -/
theorem witness_frames : FrameRecord.stop ≠ .silence ∧ (FrameRecord.repeatFrame 1 63).wf = true ∧
    (FrameRecord.values 114 159 (Vector.replicate 10 (-512))).wf = true := by decide

/-- `EncodedFrameDecodes`: an UNVOICED frame whose last bit is the stream's last bit, at bit 11. -/
theorem witness_encodedFrame : (FrameRecord.unvoiced 7 unvoicedK).encodable = true ∧
    ∃ bits, encode (.unvoiced 7 unvoicedK) = some bits ∧ 11 + bits.length ≤ 8 * 5 ∧
      ∀ (j : Nat) (h : j < bits.length), (Memory.ofBytes fortyBits).bit (11 + j) = bits[j] := by
  refine ⟨by decide, _, rfl, by decide, by decide⟩

/-- `DecodedFrameReencodes`, `EndAndMalformedTold`. -/
theorem witness_decoded : decodeFrame (Memory.ofBytes fortyBits) 5 11 = .frame (.unvoiced 7 unvoicedK) 40 := by decide

/-- `DecoderTellsKindAndLength`: for each clause a frame whose last bit is the stream's last bit. -/
theorem witness_decoder :
    (4 + 4 ≤ 8 * 1 ∧ (Memory.ofBytes [0xF0#8]).readBits 4 4 = 15) ∧
    (4 + 4 ≤ 8 * 1 ∧ (Memory.ofBytes [0x0F#8]).readBits 4 4 = 0) ∧
    (5 + 11 ≤ 8 * 2 ∧ (Memory.ofBytes [0x60#8, 0x16#8]).readBits 5 4 ≠ 15 ∧
      (Memory.ofBytes [0x60#8, 0x16#8]).readBits 5 4 ≠ 0 ∧ (Memory.ofBytes [0x60#8, 0x16#8]).bit (5 + 4) = true) ∧
    (11 + 29 ≤ 8 * 5 ∧ (Memory.ofBytes fortyBits).readBits 11 4 ≠ 15 ∧ (Memory.ofBytes fortyBits).readBits 11 4 ≠ 0 ∧
      (Memory.ofBytes fortyBits).bit (11 + 4) = false ∧ (Memory.ofBytes fortyBits).readBits (11 + 5) 6 = 0) ∧
    (6 + 50 ≤ 8 * 7 ∧
      (Memory.ofBytes [0x40#8, 0x08#8, 0#8, 0#8, 0#8, 0#8, 0xFF#8]).readBits 6 4 ≠ 15 ∧
      (Memory.ofBytes [0x40#8, 0x08#8, 0#8, 0#8, 0#8, 0#8, 0xFF#8]).readBits 6 4 ≠ 0 ∧
      (Memory.ofBytes [0x40#8, 0x08#8, 0#8, 0#8, 0#8, 0#8, 0xFF#8]).bit (6 + 4) = false ∧
      (Memory.ofBytes [0x40#8, 0x08#8, 0#8, 0#8, 0#8, 0#8, 0xFF#8]).readBits (6 + 5) 6 ≠ 0) := by decide

/-- `StreamRoundTrip`: a list that ends with STOP, one that does not, and the empty one. -/
theorem witness_roundTrip : (∀ f ∈ [FrameRecord.voiced 8 30 voicedK, .silence, .stop], f.encodable = true) ∧
    FrameRecord.stop ∉ [FrameRecord.voiced 8 30 voicedK, .silence, .stop].dropLast ∧
    (∀ f ∈ [FrameRecord.unvoiced 7 unvoicedK, .repeatFrame 3 5], f.encodable = true) ∧
    FrameRecord.stop ∉ [FrameRecord.unvoiced 7 unvoicedK, .repeatFrame 3 5].dropLast ∧
    FrameRecord.stop ∉ ([] : List FrameRecord).dropLast := by decide

/-- `DecodeAllEnds`: a malformed stream. -/
theorem witness_malformed : (decodeAll [0x01#8]).2 = true := by decide

/-- `ReadBitsIsStreamSlice`: a field that ends with the stream. -/
theorem witness_slice : 7 + 9 ≤ 8 * [0x80#8, 0x01#8].length := by decide

/-- `LoadInstallsBuffer`, `LoadPullsFirstFrame`, `LoadFramesPullsFirstRecord`, `IdleStepChangesNothing`,
`StatusReportsFlags`: an idle engine after RESET. -/
theorem witness_idle : State.reset.isReset = true ∧ State.reset.speaking = false := ⟨rfl, rfl⟩

/-- `LoadInstallsBuffer`: the last byte. -/
theorem witness_lastByte : 4 < fortyBits.length := by decide

/-- `LoadFramesPullsFirstRecord`: a list with a first record. -/
theorem witness_records : [FrameRecord.silence, .stop] = .silence :: [.stop] := rfl

/-- `InterpMovesByFloor`: a shift that is not 0, and operands at both ends of 11 bits. -/
theorem witness_interp : (3 : Nat) ≠ 0 ∧ ((-1024 : Int) ≤ -1024 ∧ (-1024 : Int) ≤ 1023) ∧
    ((-1024 : Int) ≤ 1023 ∧ (1023 : Int) ≤ 1023) := by decide

/-- `EffectiveValuesLegal`: legal registers at the ends of their ranges, in sub-period 7. -/
theorem witness_legal : LegalParams (bank 114#11 159#11 0x600#11) ∧ LegalParams (bank 0#11 0#11 0x200#11) ∧
    (loud 7#3 24#5 0#40).interpPeriod.toNat = 7 := by
  simp only [LegalParams]; decide

/-- `SilenceEnergyNeverRises`. -/
theorem witness_energy : (0 : Int) ≤ 114 ∧ (6 : Nat) < 7 := by decide

/-- The reset state's invariant with the fields a speaking engine changes. -/
theorem inv_speaking (s : State) (h : LegalParams s.cur ∧ LegalParams s.tgt ∧ s.sampleInPeriod.toNat < 25 ∧
    s.pitchCursor.toNat ≤ 158 ∧ s.noiseRegister ≠ 0#17 ∧ s.d[10] = 0#40) (hs : s.speaking = true) (hm : s.mode = .frames)
    (hb : s.bs = [] ∧ s.bsLen = 0 ∧ s.bitpos = 0) (hq : s.fq = [] ∧ s.fqIndex = 0 ∧ s.decayAppended = false) : s.Inv := by
  obtain ⟨h1, h2, h3, h4, h5, h6⟩ := h
  obtain ⟨b1, b2, b3⟩ := hb
  obtain ⟨q1, q2, q3⟩ := hq
  constructor <;> simp_all

/-- `StepAdvancesExcitation`: an unvoiced and a voiced engine that meet the invariant and complete a STEP; the voiced one's
cursor stands at 158, one below its pitch 159. -/
theorem witness_excitation :
    ((loud 6#3 24#5 0x7FF00000#40).Inv ∧ ∃ t, exec .step (loud 6#3 24#5 0x7FF00000#40) = .next t) ∧
    (interpolate hw (loud 6#3 24#5 0x7FF00000#40))[1] ≤ 0 ∧
    (voicedPast.Inv ∧ ∃ t, exec .step voicedPast = .next t) ∧ (0 : Int) < (interpolate hw voicedPast)[1] := by
  refine ⟨⟨inv_speaking _ (by simp only [LegalParams]; decide) rfl rfl ⟨rfl, rfl, rfl⟩ ⟨rfl, rfl, rfl⟩,
    next_of_completes (by decide)⟩, by decide,
    ⟨inv_speaking _ (by simp only [LegalParams]; decide) rfl rfl ⟨rfl, rfl, rfl⟩ ⟨rfl, rfl, rfl⟩,
    next_of_completes (by decide)⟩, by decide⟩

/-- `LfsrNeverReachesZero`, `LfsrPeriodIsMaximal`, `KMulRoundsDown`. -/
theorem witness_numbers : (1#17 : BitVec 17) ≠ 0#17 ∧ 0 < 131070 ∧ 131070 < 131071 ∧ (-512 : Int) ≤ -512 ∧ (512 : Int) ≤ 512 := by
  decide

/-- `StepFaultsOnOverflow`, `SpeakingStepInsideFrame`: the last sample of a sub-period that is not the frame's last. -/
theorem witness_inside : (loud 6#3 24#5 0x7FF00000#40).isReset = true ∧ (loud 6#3 24#5 0x7FF00000#40).speaking = true ∧
    (loud 6#3 24#5 0x7FF00000#40).sampleInPeriod.toNat < 25 ∧ SampleFits (loud 6#3 24#5 0x7FF00000#40) ∧
    ¬ AtFrameEnd (loud 6#3 24#5 0x7FF00000#40) :=
  ⟨rfl, rfl, by decide, witness_sampleFits _ (.inl rfl), by simp only [AtFrameEnd]; decide⟩

/-- `FrameEndPromotesThenPulls`. -/
theorem witness_frameEnd : (loud 7#3 24#5 0x7FF00000#40).isReset = true ∧ (loud 7#3 24#5 0x7FF00000#40).speaking = true ∧
    SampleFits (loud 7#3 24#5 0x7FF00000#40) ∧ AtFrameEnd (loud 7#3 24#5 0x7FF00000#40) :=
  ⟨rfl, rfl, witness_sampleFits _ (.inr rfl), by simp only [AtFrameEnd]; decide⟩

/-- `SamplesAreMultiplesOfFour`, `StepFrame`, and the whole-machine rules for STEP: at a frame end, inside a frame, idle. -/
theorem witness_steps : (∃ t, exec .step (loud 7#3 24#5 0x7FF00000#40) = .next t) ∧
    (∃ t, exec .step (loud 6#3 24#5 0x7FF00000#40) = .next t) ∧ ∃ t, exec .step State.reset = .next t :=
  ⟨next_of_completes (by decide), next_of_completes (by decide), next_of_completes (by decide)⟩

/-- `QuietEngineStaysQuiet`. -/
theorem witness_quiet : quiet.isReset = true ∧ quiet.speaking = true ∧ quiet.cur = Vector.replicate 12 0#11 ∧
    quiet.tgt = Vector.replicate 12 0#11 ∧ quiet.d = Vector.replicate 11 0#40 := ⟨rfl, rfl, rfl, rfl, rfl⟩

/-- `BitstreamPull`: the end, a stream cut inside a frame, a frame that ends with the stream. -/
theorem witness_bitstreamPull : (endOf fortyBits 40).mode = .bitstream ∧
    decodeFrame (endOf fortyBits 40).bs (endOf fortyBits 40).bsLen (endOf fortyBits 40).bitpos = .ended ∧
    decodeFrame (endOf fortyBits 39).bs (endOf fortyBits 39).bsLen (endOf fortyBits 39).bitpos = .malformed ∧
    decodeFrame (endOf fortyBits 11).bs (endOf fortyBits 11).bsLen (endOf fortyBits 11).bitpos =
      .frame (.unvoiced 7 unvoicedK) 40 := by decide

/-- `QueuePull`: a record left, none left, none left and the decay spoken. -/
theorem witness_queuePull : quiet.mode = .frames ∧ ({ quiet with fq := [.stop] } : State).fqIndex < [FrameRecord.stop].length ∧
    (quiet.fq.length ≤ quiet.fqIndex ∧ quiet.decayAppended = false) ∧
    ({ quiet with decayAppended := true } : State).decayAppended = true := by decide

/-- `LoadsFrame` and the whole-machine rules for LOAD, LOAD_FRAMES, STATUS, RESET and a frame. -/
theorem witness_commands : (∃ t, exec (.load fortyBits) State.reset = .next t) ∧
    (∃ t, exec (.loadFrames [.silence]) State.reset = .next t) ∧ (∃ t, exec .status State.reset = .next t) ∧
    (∃ t, exec .reset State.reset = .next t) ∧ ∃ t, exec .stop State.reset = .next t :=
  ⟨next_of_completes (by decide), next_of_completes (by decide), next_of_completes (by decide),
    next_of_completes (by decide), next_of_completes (by decide)⟩

/-- `LoadsFrame`: loads at an idle engine whose counters do not stand at 0, by way of each disjunct: a frame that keeps the
counters, and the three SILENCEs that do not. -/
theorem witness_loads :
    after (exec (.load [0x0F#8]) midway) (fun t => t.interpPeriod == 3#3 && t.sampleInPeriod == 4#5) = true ∧
    after (exec (.loadFrames [.stop]) midway) (fun t => t.interpPeriod == 3#3 && t.sampleInPeriod == 4#5) = true ∧
    after (exec (.load [0xF0#8]) midway) (fun t => t.interpPeriod == 0#3 && t.sampleInPeriod == 0#5) = true ∧
    after (exec (.loadFrames [.silence, .stop]) midway) (fun t => t.interpPeriod == 0#3 && t.sampleInPeriod == 0#5) = true ∧
    after (exec (.loadFrames []) midway) (fun t => t.interpPeriod == 0#3 && t.sampleInPeriod == 0#5) = true := by
  decide

/-- `BitCursorMovesByFrames`, `CurrentWrittenByPromotion`: a STEP that ends a frame and pulls from a bitstream. -/
theorem witness_bitCursor : (∃ t, exec .step (endOf [0x00#8] 4) = .next t) ∧ Instr.step ≠ .reset ∧
    (∀ l, Instr.step ≠ .load l) ∧ ∀ l, Instr.step ≠ .loadFrames l :=
  ⟨next_of_completes (by decide), by decide, fun _ => by simp, fun _ => by simp⟩

/-- `LoadsWhileSpeakingRefused`. -/
theorem witness_speaking : quiet.isReset = true ∧ quiet.speaking = true := ⟨rfl, rfl⟩

/-- `StepRunsNextCommand`: a queued command, and none. -/
theorem witness_queue : ({ State.reset with hostCmds := [.status] } : State).hostCmds = .status :: [] ∧
    State.reset.hostCmds = [] := ⟨rfl, rfl⟩

/-- `FetchedFrameIsExecuted`: a LOAD that fetches a frame, and a STEP at a frame end that fetches one. -/
theorem witness_fetched : decodeFrame (Memory.ofBytes fortyBits) fortyBits.length 0 = .frame (.repeatFrame 3 5) 11 ∧
    (endOf fortyBits 11).isReset = true ∧ (endOf fortyBits 11).speaking = true ∧ (endOf fortyBits 11).mode = .bitstream ∧
    SampleFits (endOf fortyBits 11) ∧ AtFrameEnd (endOf fortyBits 11) ∧
    decodeFrame (endOf fortyBits 11).bs (endOf fortyBits 11).bsLen (endOf fortyBits 11).bitpos =
      .frame (.unvoiced 7 unvoicedK) 40 :=
  ⟨by decide, rfl, rfl, rfl, by simp only [SampleFits, LatticeFits, StageFits, FitsDelay]; decide,
    by simp only [AtFrameEnd]; decide, by decide⟩

/-- `PlacedWordRunsNext`, and that the placed word's step completes from reset. -/
theorem witness_placed : decodeTableWord 29 0x0D0AC007 = some (.unvoiced 7 unvoicedK) ∧
    ∃ t, step (State.reset.withFetchWord 29 0x0D0AC007) = .next t := ⟨by decide, next_of_completes (by decide)⟩

/-- `StepKeepsInvariant`: a step from a speaking state that meets the invariant. -/
theorem witness_invariant : (loud 7#3 24#5 0x7FF00000#40).Inv ∧ ∃ t, step (loud 7#3 24#5 0x7FF00000#40) = .next t :=
  ⟨inv_speaking _ (by simp only [LegalParams]; decide) rfl rfl ⟨rfl, rfl, rfl⟩ ⟨rfl, rfl, rfl⟩, next_of_completes (by decide)⟩

/-- `FrameLastsTwoHundredSteps`: one STEP from place 198, which does not reach 200, and one from place 199, which does. -/
theorem witness_frame : (loud 7#3 23#5 0x7FF00000#40).speaking = true ∧
    (loud 7#3 23#5 0x7FF00000#40).sampleInPeriod.toNat < 25 ∧
    198 = 25 * (loud 7#3 23#5 0x7FF00000#40).interpPeriod.toNat + (loud 7#3 23#5 0x7FF00000#40).sampleInPeriod.toNat ∧
    198 + 1 < 200 ∧ (∃ t, stepTimes 1 (loud 7#3 23#5 0x7FF00000#40) = .next t) ∧
    199 = 25 * (loud 7#3 24#5 0x7FF00000#40).interpPeriod.toNat + (loud 7#3 24#5 0x7FF00000#40).sampleInPeriod.toNat ∧
    199 + 1 = 200 ∧ ∃ t, stepTimes 1 (loud 7#3 24#5 0x7FF00000#40) = .next t :=
  ⟨rfl, by decide, by decide, by decide, next_of_completes (by decide), by decide, by decide, next_of_completes (by decide)⟩

/-- `RenderStaysUnderCap`: a rendering that ends below its cap, one that reaches it, and a cap below 1. -/
theorem witness_render : (∃ t, render [0x0F#8] 1 State.reset = .next t) ∧
    (∃ t, render [0xF0#8] 1 State.reset = .next t) ∧ (∃ t, renderFrames [.stop] 1 State.reset = .next t) ∧ (0 : Int) < 1 :=
  ⟨next_of_completes (by decide), next_of_completes (by decide), next_of_completes (by decide), by decide⟩

end Sys2Proof.Tests
end

-- Proofs of the state family: what each instruction can do to the state, and what every step keeps.
section
/-! What a pull can do and what an instruction that completes can do, once each; the statements about which instruction
writes which item of state are read off from these two. -/

namespace Sys2Proof.Machine

open Sys2Proof

/-! ### Applying a record: what is left unchanged, and the error bits -/

section
variable (f : FrameRecord) (s : State)

@[simp] theorem takeRecord_cur : (takeRecord hw f s).cur = s.cur := by
  obtain ⟨_, _, _, _, _, h⟩ := takeRecord_effect hw f s; rw [h]
@[simp] theorem takeRecord_pitchCursor : (takeRecord hw f s).pitchCursor = s.pitchCursor := by
  obtain ⟨_, _, _, _, _, h⟩ := takeRecord_effect hw f s; rw [h]
@[simp] theorem takeRecord_noiseRegister : (takeRecord hw f s).noiseRegister = s.noiseRegister := by
  obtain ⟨_, _, _, _, _, h⟩ := takeRecord_effect hw f s; rw [h]
@[simp] theorem takeRecord_d : (takeRecord hw f s).d = s.d := by
  obtain ⟨_, _, _, _, _, h⟩ := takeRecord_effect hw f s; rw [h]
@[simp] theorem takeRecord_mode : (takeRecord hw f s).mode = s.mode := by
  obtain ⟨_, _, _, _, _, h⟩ := takeRecord_effect hw f s; rw [h]
@[simp] theorem takeRecord_bitpos : (takeRecord hw f s).bitpos = s.bitpos := by
  obtain ⟨_, _, _, _, _, h⟩ := takeRecord_effect hw f s; rw [h]
@[simp] theorem takeRecord_bs : (takeRecord hw f s).bs = s.bs := by
  obtain ⟨_, _, _, _, _, h⟩ := takeRecord_effect hw f s; rw [h]
@[simp] theorem takeRecord_bsLen : (takeRecord hw f s).bsLen = s.bsLen := by
  obtain ⟨_, _, _, _, _, h⟩ := takeRecord_effect hw f s; rw [h]
@[simp] theorem takeRecord_fq : (takeRecord hw f s).fq = s.fq := by
  obtain ⟨_, _, _, _, _, h⟩ := takeRecord_effect hw f s; rw [h]

end

/-- A condition raised or not: `err` stays or gets the condition's bit. -/
theorem raiseIf_err_cases (b : Bool) (c : Condition) (s : State) :
    (s.raiseIf b c).err = s.err ∨ (s.raiseIf b c).err = s.err ||| c.mask := by
  cases b
  · exact .inl rfl
  · exact .inr rfl

/-- A record raises no condition but InvalidFrameParameter (R263). -/
theorem takeRecord_err (f : FrameRecord) (s : State) :
    (takeRecord hw f s).err = s.err ∨ (takeRecord hw f s).err = s.err ||| Condition.invalidFrameParameter.mask := by
  cases f with
  | stop => exact .inl rfl
  | silence => exact .inl rfl
  | repeatFrame e p => exact raiseIf_err_cases _ _ s
  | unvoiced e k => exact raiseIf_err_cases _ _ s
  | voiced e p k => exact raiseIf_err_cases _ _ s
  | values e p k => exact raiseIf_err_cases _ _ (s.setTgt _)

/-- A record keeps the two counters or, if it is SILENCE, zeroes them (R123); so counters at 0 stay at 0. -/
theorem takeRecord_counters_zero (f : FrameRecord) {s : State} (hip : s.interpPeriod = 0#3)
    (hsip : s.sampleInPeriod = 0#5) :
    (takeRecord hw f s).interpPeriod = 0#3 ∧ (takeRecord hw f s).sampleInPeriod = 0#5 := by
  cases f with
  | stop => exact ⟨hip, hsip⟩
  | silence => exact ⟨rfl, rfl⟩
  | repeatFrame e p => simp [takeRecord, takeRepeat, applyRepeat, hip, hsip]
  | unvoiced e k => simp [takeRecord, takeUnvoiced, applyUnvoiced, hip, hsip]
  | voiced e p k => simp [takeRecord, takeVoiced, applyVoiced, hip, hsip]
  | values e p k => simp [takeRecord, takeValues, hip, hsip]

/-! ### Everything a pull can do -/

/-- The states a pull from `s` can leave (R229 to R232). -/
inductive Pulled (s : State) : State → Prop
  | noSource (hm : s.mode = .none) : Pulled s s
  | streamEnded (hm : s.mode = .bitstream) : Pulled s s.stopSpeaking
  | streamMalformed (hm : s.mode = .bitstream) : Pulled s (s.raise .malformedBitstream).stopSpeaking
  | streamFrame (f : FrameRecord) (n : Nat) (hm : s.mode = .bitstream) (hn : n ∈ [4, 11, 29, 50])
      (hle : s.bitpos + n ≤ 8 * s.bsLen) : Pulled s (takeRecord hw f (s.setBitpos (s.bitpos + n)))
  | queueRecord (f : FrameRecord) (hm : s.mode = .frames) (hlt : s.fqIndex < s.fq.length) :
      Pulled s (takeRecord hw f (s.setFqIndex (s.fqIndex + 1)))
  | queueDecay (hm : s.mode = .frames) (hge : s.fq.length ≤ s.fqIndex) : Pulled s (takeRecord hw .silence s.markDecay)
  | queueEnded (hm : s.mode = .frames) : Pulled s s.stopSpeaking

theorem pulled_pullBits {s : State} (hm : s.mode = .bitstream) : Pulled s (pullBits hw s) := by
  rw [pullBits]
  obtain ⟨h, -⟩ | ⟨h, -⟩ | ⟨f, n, h, hle, hkind⟩ := decodeFrame_cases s.bs s.bsLen s.bitpos
  · rw [h]; exact .streamEnded hm
  · rw [h]; exact .streamMalformed hm
  · have hn : n ∈ [4, 11, 29, 50] := by
      obtain ⟨rfl, -⟩ | ⟨rfl, -⟩ | ⟨rfl, -⟩ | ⟨rfl, -⟩ | ⟨rfl, -⟩ := hkind <;> decide
    rw [h]; exact .streamFrame f n hm hn hle

theorem pulled_pullQueue {s : State} (hm : s.mode = .frames) : Pulled s (pullQueue hw s) := by
  rw [pullQueue]
  split
  · next f hf => exact .queueRecord f hm (List.getElem?_eq_some_iff.mp hf).1
  · next hf =>
    split
    · exact .queueEnded hm
    · exact .queueDecay hm (List.getElem?_eq_none_iff.mp hf)

theorem pulled_pull (s : State) : Pulled s (pull hw s) := by
  cases hm : s.mode with
  | none => rw [pull, hm]; exact .noSource hm
  | bitstream => rw [pull_bitstream hm]; exact pulled_pullBits hm
  | frames => rw [pull_frames hm]; exact pulled_pullQueue hm

/-- A pull moves the bit cursor only in BITSTREAM mode, past one frame that lies in the stream (R230). -/
theorem Pulled.bitpos {s t : State} (h : Pulled s t) :
    t.bitpos = s.bitpos ∨
      (s.mode = .bitstream ∧ t.bitpos ≤ 8 * s.bsLen ∧ ∃ n ∈ [4, 11, 29, 50], t.bitpos = s.bitpos + n) := by
  cases h with
  | noSource _ => exact .inl rfl
  | streamEnded _ => exact .inl rfl
  | streamMalformed _ => exact .inl rfl
  | streamFrame f n hm hn hle => exact .inr ⟨hm, by simpa using hle, n, hn, by simp⟩
  | queueRecord f _ _ => exact .inl (by simp)
  | queueDecay _ _ => exact .inl rfl
  | queueEnded _ => exact .inl rfl

/-! ### Everything an instruction that completes can do -/

/-- The state after `Pipeline()` left the delay line `d'`: the excitation registers are written too (R225). -/
@[simp] def State.sampled (s : State) (d' : Vector Delay 11) : State :=
  (s.setExcitation (advanceCursor (interpolate hw s)[1] s.pitchCursor) (exciteNoise hw (interpolate hw s)[1] s)).setDelay d'

/-- The next states instruction `i` can answer from `s`. The two speaking STEPs are told apart by `AtFrameEnd`: inside a
frame the place `25 interp_period + sample_in_period` moves on by one, at its end the targets are promoted and a frame is
pulled (R227). -/
inductive Completes (s : State) : Instr → State → Prop
  | frame (i : Instr) (f : FrameRecord) (hf : i.frame? = some f) : Completes s i (takeRecord hw f s)
  | reset : Completes s .reset { State.reset with pcm := s.pcm, statusOut := s.statusOut, hostCmds := s.hostCmds }
  | load (bytes : List Byte) (hs : s.speaking = false) : Completes s (.load bytes) (pull hw (s.installBits bytes))
  | loadFrames (frames : List FrameRecord) (hs : s.speaking = false) :
      Completes s (.loadFrames frames) (pull hw (s.installFrames frames))
  | idleStep (hs : s.speaking = false) : Completes s .step (s.pcmWrite 0)
  | insideFrame (d' : Vector Delay 11) (v : Int) (ip sip : Nat) (hs : s.speaking = true) (hd : d'[10] = s.d[10])
      (hend : ¬ AtFrameEnd s) (hplace : 25 * ip + sip = 25 * s.interpPeriod.toNat + s.sampleInPeriod.toNat + 1)
      (hsip : s.sampleInPeriod.toNat < 25 → sip < 25) :
      Completes s .step (((s.sampled d').setCounters ip sip).pcmWrite v)
  | frameEnd (d' : Vector Delay 11) (v : Int) (hs : s.speaking = true) (hd : d'[10] = s.d[10]) (hend : AtFrameEnd s) :
      Completes s .step ((pull hw ((s.sampled d').setCounters 0 0).promote).pcmWrite v)
  | status : Completes s .status (s.setStatusOut (s.report hw))

/-- The pipeline writes the excitation registers and the delay line but for `d[10]` (R31, R225). -/
theorem pipeline_sampled {s t : State} {v : Int} (h : pipeline hw s = .ok (v, t)) :
    ∃ d' : Vector Delay 11, d'[10] = s.d[10] ∧ t = s.sampled d' := by
  obtain ⟨d', u, hl, -, rfl⟩ := pipeline_eq_ok h
  exact ⟨d', lattice_last hl, rfl⟩

theorem completes_step {s t : State} (h : execStep s = .next t) : Completes s .step t := by
  obtain ⟨-, he⟩ | ⟨-, hs, he⟩ | ⟨-, -, i, -, he⟩ | ⟨-, hs, v, t', hp, he⟩ := execStep_cases s
  all_goals rw [he] at h; cases h
  · exact .idleStep hs
  · obtain ⟨d', hd, rfl⟩ := pipeline_sampled hp
    obtain ⟨h24, h7, ha⟩ | ⟨h24, h7, ha⟩ | ⟨h24, ha⟩ := advanceCounters_cases hw (s.sampled d')
    all_goals
      rw [ha]
      simp only [State.sampled, State.setDelay_sampleInPeriod, State.setExcitation_sampleInPeriod,
        State.setDelay_interpPeriod, State.setExcitation_interpPeriod] at *
    · exact .frameEnd d' v hs hd ⟨h7, h24⟩
    · exact .insideFrame d' v _ _ hs hd (fun hend => h7 hend.1) (by omega) (by omega)
    · exact .insideFrame d' v _ _ hs hd (fun hend => h24 hend.2) (by omega) (by omega)

theorem completes_load {bytes : List Byte} {s t : State} (h : execLoad bytes s = .next t) :
    Completes s (.load bytes) t := by
  obtain ⟨-, he⟩ | ⟨-, -, he⟩ | ⟨-, hs, he⟩ := execLoad_cases bytes s
  all_goals rw [he] at h; cases h
  exact .load bytes hs

theorem completes_loadFrames {frames : List FrameRecord} {s t : State} (h : execLoadFrames frames s = .next t) :
    Completes s (.loadFrames frames) t := by
  obtain ⟨-, he⟩ | ⟨-, -, he⟩ | ⟨-, hs, he⟩ := execLoadFrames_cases frames s
  all_goals rw [he] at h; cases h
  exact .loadFrames frames hs

theorem completes_status {s t : State} (h : execStatus s = .next t) : Completes s .status t := by
  obtain ⟨-, he⟩ | ⟨-, he⟩ := execStatus_cases s
  all_goals rw [he] at h; cases h
  exact .status

/-- The inversion of `exec`: a next state is one of those `Completes` lists. -/
theorem completes_of_exec {i : Instr} {s t : State} (h : exec i s = .next t) : Completes s i t := by
  cases i with
  | stop => cases h; exact .frame _ .stop rfl
  | silence => cases h; exact .frame _ .silence rfl
  | repeatFrame e p => cases h; exact .frame _ (.repeatFrame e p) rfl
  | unvoiced e k => cases h; exact .frame _ (.unvoiced e k) rfl
  | voiced e p k => cases h; exact .frame _ (.voiced e p k) rfl
  | values e p k => cases h; exact .frame _ (.values e p k) rfl
  | reset => cases h; exact .reset
  | load bytes => exact completes_load h
  | loadFrames frames => exact completes_loadFrames h
  | step => exact completes_step h
  | status => exact completes_status h

/-! ### The error bits -/

/-- `e'` keeps every bit set in `e` and agrees with it on OVERLONG and LATTICE_OVF. -/
def ErrKept (e e' : BitVec 4) : Prop :=
  e &&& e' = e ∧ e'.getLsbD 1 = e.getLsbD 1 ∧ e'.getLsbD 3 = e.getLsbD 3

theorem errKept_refl (e : BitVec 4) : ErrKept e e := ⟨BitVec.and_self, rfl, rfl⟩

/-- Raising MalformedBitstream keeps the other bits. -/
theorem errKept_malformed (e : BitVec 4) : ErrKept e (e ||| Condition.malformedBitstream.mask) := by
  unfold ErrKept; revert e; decide

/-- Raising InvalidFrameParameter keeps the other bits. -/
theorem errKept_invalid (e : BitVec 4) : ErrKept e (e ||| Condition.invalidFrameParameter.mask) := by
  unfold ErrKept; revert e; decide

theorem takeRecord_errKept (f : FrameRecord) (s : State) : ErrKept s.err (takeRecord hw f s).err := by
  obtain h | h := takeRecord_err f s
  · rw [h]; exact errKept_refl _
  · rw [h]; exact errKept_invalid _

theorem Pulled.errKept {s t : State} (h : Pulled s t) : ErrKept s.err t.err := by
  cases h with
  | noSource _ => exact errKept_refl _
  | streamEnded _ => exact errKept_refl _
  | streamMalformed _ => exact errKept_malformed _
  | streamFrame f n _ _ _ => exact takeRecord_errKept f (s.setBitpos (s.bitpos + n))
  | queueRecord f _ _ => exact takeRecord_errKept f (s.setFqIndex (s.fqIndex + 1))
  | queueDecay _ _ => exact errKept_refl _
  | queueEnded _ => exact errKept_refl _

/-- On this machine the LFSR runs on an unvoiced sample only (R176, D5). -/
theorem exciteNoise_cases (p : Int) (s : State) :
    exciteNoise hw p s = s.noiseRegister ∨ (p ≤ 0 ∧ exciteNoise hw p s = lfsrNext s.noiseRegister) := by
  unfold exciteNoise
  split
  · exact .inl rfl
  · next hp => exact .inr ⟨by omega, rfl⟩

end Sys2Proof.Machine
end

section
/-! The obligations about which instruction writes which item of state. -/

namespace Sys2Proof.Proofs

open Sys2Proof Sys2Proof.Machine

/-- Settles O39, on the three STEPs that complete. -/
theorem stepFrame : Obligations.StepFrame := by
  intro s t h
  cases completes_of_exec h with
  | frame _ f hf => cases hf
  | idleStep hs => simp
  | insideFrame d' v ip sip hs hd hend _ _ => simp [hs, hd]
  | frameEnd d' v hs hd hend => simp [hs, hd, hend]

/-- Settles O50: only RESET and the promotion of the STEP at a frame end write `cur`. -/
theorem currentWrittenByPromotion : Obligations.CurrentWrittenByPromotion := by
  intro i s t h
  cases completes_of_exec h with
  | frame _ f _ => exact .inl (by simp)
  | reset => exact .inr (.inl rfl)
  | load bytes _ => exact .inl (by simp)
  | loadFrames frames _ => exact .inl (by simp)
  | idleStep _ => exact .inl rfl
  | insideFrame d' v ip sip _ _ _ _ _ => exact .inl (by simp)
  | frameEnd d' v hs _ hend => exact .inr (.inr ⟨rfl, hs, hend, by simp⟩)
  | status => exact .inl rfl

/-- Settles O51: `mode` comes from RESET and the two installs, and no pull writes it. -/
theorem modeWrittenByThreeCommands : Obligations.ModeWrittenByThreeCommands := by
  intro i s t h
  cases completes_of_exec h with
  | frame _ f hf => cases i <;> cases hf <;> exact takeRecord_mode _ s
  | reset => rfl
  | load bytes _ => simp
  | loadFrames frames _ => simp
  | idleStep _ => rfl
  | insideFrame d' v ip sip _ _ _ _ _ => simp
  | frameEnd d' v _ _ _ => simp
  | status => rfl

/-- Settles O52: only the pipeline of a speaking STEP writes the generators, and it keeps `d[10]`. -/
theorem generatorsWrittenByStep : Obligations.GeneratorsWrittenByStep := by
  intro i s t h hreset
  have hnoise := exciteNoise_cases (interpolate hw s)[1] s
  cases completes_of_exec h with
  | frame _ f _ => simp
  | reset => exact absurd rfl hreset
  | load bytes _ => simp
  | loadFrames frames _ => simp
  | idleStep _ => simp
  | insideFrame d' v ip sip hs hd _ _ _ => exact ⟨by simp [hd], by simpa [hs] using hnoise, .inr ⟨rfl, hs⟩⟩
  | frameEnd d' v hs hd _ => exact ⟨by simp [hd], by simpa [hs] using hnoise, .inr ⟨rfl, hs⟩⟩
  | status => simp

/-- Settles O53, by the pull of the STEP at a frame end. -/
theorem bitCursorMovesByFrames : Obligations.BitCursorMovesByFrames := by
  intro i s t h hreset hload hframes
  cases completes_of_exec h with
  | frame _ f _ => exact .inl (by simp)
  | reset => exact absurd rfl hreset
  | load bytes _ => exact absurd rfl (hload bytes)
  | loadFrames frames _ => exact absurd rfl (hframes frames)
  | idleStep _ => exact .inl rfl
  | insideFrame d' v ip sip _ _ _ _ _ => exact .inl (by simp)
  | frameEnd d' v hs _ hend =>
    have hp := (pulled_pull ((s.sampled d').setCounters 0 0).promote).bitpos
    simpa [hs, hend] using hp
  | status => exact .inl rfl

/-- Settles O54: no pull and no record writes the buffers. -/
theorem buffersWrittenByLoadsOnly : Obligations.BuffersWrittenByLoadsOnly := by
  intro i s t h hreset hload hframes
  cases completes_of_exec h with
  | frame _ f _ => simp
  | reset => exact absurd rfl hreset
  | load bytes _ => exact absurd rfl (hload bytes)
  | loadFrames frames _ => exact absurd rfl (hframes frames)
  | idleStep _ => simp
  | insideFrame d' v ip sip _ _ _ _ _ => simp
  | frameEnd d' v _ _ _ => simp
  | status => simp

/-- Settles O55: records and pulls only raise bits 0 and 2, and nothing else but RESET writes `err`. -/
theorem errorBitsAreSticky : Obligations.ErrorBitsAreSticky := by
  intro i s t h hreset
  cases completes_of_exec h with
  | frame _ f _ => exact takeRecord_errKept f s
  | reset => exact absurd rfl hreset
  | load bytes _ => exact (pulled_pull (s.installBits bytes)).errKept
  | loadFrames frames _ => exact (pulled_pull (s.installFrames frames)).errKept
  | idleStep _ => exact errKept_refl _
  | insideFrame d' v ip sip _ _ _ _ _ => simp
  | frameEnd d' v _ _ _ =>
    have hp := (pulled_pull ((s.sampled d').setCounters 0 0).promote).errKept
    simpa [ErrKept] using hp
  | status => exact errKept_refl _

end Sys2Proof.Proofs
end

section
/-! The values of the parameter registers and generators: every record writes legal targets, the effective pitch is legal,
and the generators' updates keep their ranges. -/

namespace Sys2Proof.Machine

open Sys2Proof

/-! ### Legal targets (10_state.md R21) -/

theorem clamp_mem (v : Int) {lo hi : Int} (h : lo ≤ hi) : lo ≤ clamp v lo hi ∧ clamp v lo hi ≤ hi := by
  rw [clamp_eq v lo hi h]; omega

/-- A legal energy register. -/
def LegalEnergy (v : Param) : Prop := 0 ≤ v.toInt ∧ v.toInt ≤ 114

/-- A legal pitch register. -/
def LegalPitch (v : Param) : Prop := 0 ≤ v.toInt ∧ v.toInt ≤ 159

/-- A legal K register. -/
def LegalK (v : Param) : Prop := -512 ≤ v.toInt ∧ v.toInt ≤ 512

theorem legalK_zero : LegalK 0#paramW := by unfold LegalK; decide

theorem legalParams_zero : LegalParams (Vector.replicate 12 0#paramW) := by unfold LegalParams; decide

theorem legalEnergy_rom (e : Int) : LegalEnergy (romEnergy hw (energyIndex e)) := by
  obtain ⟨h0, h1⟩ : 0 ≤ energyIndex e ∧ energyIndex e ≤ 15 := clamp_mem e (by omega)
  rw [LegalEnergy, romEnergy_toInt _ h0 (by omega)]
  exact hw_admissible.energy _ (by omega)

/-- Every pitch index in range reads a legal pitch: 0 or 15..159 (00_scope.md R8). -/
theorem legalPitch_rom {p : Int} (h0 : 0 ≤ p) (h1 : p ≤ 63) : LegalPitch (romPitch hw p) := by
  have h := hw_admissible.pitch p.toNat (by omega)
  rw [LegalPitch, romPitch_toInt _ h0 (by omega)]
  omega

theorem legalPitch_rom_index (p : Int) : LegalPitch (romPitch hw (pitchIndex p)) := by
  obtain ⟨h0, h1⟩ : 0 ≤ pitchIndex p ∧ pitchIndex p ≤ 63 := clamp_mem p (by omega)
  exact legalPitch_rom h0 h1

/-- A clamped K index reads a legal K of its table. -/
theorem legalK_rom {n : Nat} (hn : n ≤ 10) (k : Vector Int n) (i : Fin n) : LegalK (romK hw i.val (kIndices k)[i]) := by
  have hcard : ∀ j : Fin 10, 0 < kCard j.val := by decide
  have hpos : 0 < kCard i.val := hcard ⟨i.val, by omega⟩
  obtain ⟨h0, h1⟩ : 0 ≤ (kIndices k)[i] ∧ (kIndices k)[i] ≤ (kCard i.val : Int) - 1 := by
    rw [kIndices_getElem]; exact clamp_mem _ (by omega)
  have hlt : (kIndices k)[i] < (kCard i.val : Int) := by omega
  have h := hw_admissible.k i.val (by omega) (kIndices k)[i].toNat (by change _ < kCard i.val; omega)
  rw [LegalK, romK_toInt i.val (by omega) _ h0 hlt]
  omega

/-- A frame that sets all twelve targets sets legal ones if each is. -/
theorem legalParams_targets {e p : Param} {k : Fin 10 → Param} (he : LegalEnergy e) (hp : LegalPitch p)
    (hk : ∀ i, LegalK (k i)) : LegalParams (targets e p k) :=
  ⟨he, hp, fun i => by rw [targets_k]; exact hk i⟩

/-- REPEAT's write: energy and pitch replaced, the K's kept. -/
theorem legalParams_set {v : Vector Param 12} {e p : Param} (hv : LegalParams v) (he : LegalEnergy e)
    (hp : LegalPitch p) : LegalParams ((v.set 0 e).set 1 p) := by
  obtain ⟨-, -, hk⟩ := hv
  refine ⟨by simpa [LegalEnergy] using he, by simpa [LegalPitch] using hp, fun i => ?_⟩
  rw [Vector.getElem_set_ne _ _ (by omega), Vector.getElem_set_ne _ _ (by omega)]
  exact hk i

/-- Whatever the record and its operands, the targets stay legal (R233, R234). -/
theorem takeRecord_tgt_legal (f : FrameRecord) {s : State} (h : LegalParams s.tgt) :
    LegalParams (takeRecord hw f s).tgt := by
  cases f with
  | stop => exact h
  | silence => exact legalParams_zero
  | repeatFrame e p =>
    simp only [takeRecord, takeRepeat, applyRepeat, State.setTgt_tgt, State.raiseIf_tgt]
    exact legalParams_set h (legalEnergy_rom e) (legalPitch_rom_index p)
  | unvoiced e k =>
    refine legalParams_targets (legalEnergy_rom e) (legalPitch_rom (by omega) (by omega)) fun i => ?_
    split
    · next hi => exact legalK_rom (by omega) k ⟨i.val, hi⟩
    · exact legalK_zero
  | voiced e p k => exact legalParams_targets (legalEnergy_rom e) (legalPitch_rom_index p) (legalK_rom (by omega) k)
  | values e p k =>
    simp only [takeRecord, takeValues, State.raiseIf_tgt, State.setTgt_tgt]
    refine legalParams_targets ?_ ?_ fun i => ?_
    · obtain ⟨h0, h1⟩ : 0 ≤ energyValue e ∧ energyValue e ≤ 114 := clamp_mem e (by omega)
      rw [LegalEnergy, toParam_toInt _ (by omega) (by omega)]; exact ⟨h0, h1⟩
    · obtain ⟨h0, h1⟩ : 0 ≤ pitchValue p ∧ pitchValue p ≤ 159 := clamp_mem p (by omega)
      rw [LegalPitch, toParam_toInt _ (by omega) (by omega)]; exact ⟨h0, h1⟩
    · obtain ⟨h0, h1⟩ : -512 ≤ (kValues k)[i] ∧ (kValues k)[i] ≤ 512 := by
        rw [kValues_getElem]; exact clamp_mem _ (by omega)
      rw [LegalK, toParam_toInt _ (by omega) (by omega)]; exact ⟨h0, h1⟩

/-! ### The effective pitch and the generators -/

/-- An effective value is at most the larger of current and target (R155). -/
theorem interp_le_max (c t : Int) (n : Nat) : interp c t n ≤ max c t := by
  unfold interp asr
  split
  · exact le_max_right c t
  · have hpow : (0 : Int) < 2 ^ n := by positivity
    obtain hle | hlt := le_or_gt c t
    · have := Int.ediv_le_self (2 ^ n) (show 0 ≤ t - c by omega)
      omega
    · have := Int.ediv_neg_of_neg_of_pos (show t - c < 0 by omega) hpow
      omega

theorem effectivePitch_le {s : State} (hc : LegalParams s.cur) (ht : LegalParams s.tgt) :
    (interpolate hw s)[1] ≤ 159 := by
  obtain ⟨-, ⟨-, hc⟩, -⟩ := hc
  obtain ⟨-, ⟨-, ht⟩, -⟩ := ht
  rw [interpolate_getElem]
  have h := interp_le_max s.cur[1].toInt s.tgt[1].toInt (shiftOf hw s.interpPeriod.toNat)
  omega

/-- With a legal pitch the cursor wraps before it passes 158 (R28, R174). -/
theorem advanceCursor_le {p : Int} (hp : p ≤ 159) (c : BitVec 8) : (advanceCursor p c).toNat ≤ 158 := by
  unfold advanceCursor
  split
  · simp
  · rw [BitVec.toNat_ofNat]; omega

/-- The LFSR update maps no non-zero register to 0 (R177): bits 0..15 of the update are bits 1..16 of the register, and
bit 16 is bit 0 xor bit 3. -/
theorem lfsrNext_ne_zero {r : BitVec 17} (hr : r ≠ 0#17) : lfsrNext r ≠ 0#17 := by
  intro h
  have hbit (i : Nat) : (lfsrNext r).getLsbD i = false := by rw [h]; exact BitVec.getLsbD_zero
  have hhigh (j : Nat) (hj : j < 16) : r.getLsbD (j + 1) = false := by
    have := hbit j
    simp only [lfsrNext, BitVec.getLsbD_or, BitVec.getLsbD_ushiftRight, Bool.or_eq_false_iff] at this
    rw [Nat.add_comm]; exact this.1
  have hlow : r.getLsbD 0 = r.getLsbD 3 := by simpa [lfsrNext] using hbit 16
  refine hr (BitVec.eq_of_getLsbD_eq fun i hi => ?_)
  rw [BitVec.getLsbD_zero]
  cases i with
  | zero => rw [hlow]; exact hhigh 2 (by omega)
  | succ j => exact hhigh j (by omega)

theorem exciteNoise_ne_zero (p : Int) {s : State} (h : s.noiseRegister ≠ 0#17) : exciteNoise hw p s ≠ 0#17 := by
  obtain he | ⟨-, he⟩ := exciteNoise_cases p s
  · rw [he]; exact h
  · rw [he]; exact lfsrNext_ne_zero h

end Sys2Proof.Machine
end

section
/-! The invariant of 10_state.md is kept by each write the commands make, by a pull, and so by every step. -/

namespace Sys2Proof.Machine

open Sys2Proof

namespace State.Inv

variable {s t : State}

/-! ### The writes of a pull -/

theorem stopSpeaking (h : s.Inv) (hip : s.interpPeriod = 0#3) (hsip : s.sampleInPeriod = 0#5) : s.stopSpeaking.Inv :=
  { h with
    idleCounters := fun _ => ⟨hip, hsip⟩
    hasSource := nofun }

theorem raise (h : s.Inv) (c : Condition) : (s.raise c).Inv := { h with }

theorem setBitpos (h : s.Inv) {v : Nat} (hm : s.mode = .bitstream) (hv : v ≤ 8 * s.bsLen) : (s.setBitpos v).Inv :=
  { h with
    cursorInStream := hv
    onlyBits := fun hne => absurd hm hne }

theorem setFqIndex_succ (h : s.Inv) (hm : s.mode = .frames) (hlt : s.fqIndex < s.fq.length) :
    (s.setFqIndex (s.fqIndex + 1)).Inv :=
  { h with
    queueCursor := hlt
    decayLast := fun hda => absurd (h.decayLast hda) (by omega)
    onlyQueue := fun hne => absurd hm hne }

theorem markDecay (h : s.Inv) (hm : s.mode = .frames) (hge : s.fq.length ≤ s.fqIndex) : s.markDecay.Inv :=
  { h with
    decayLast := fun _ => Nat.le_antisymm h.queueCursor hge
    onlyQueue := fun hne => absurd hm hne }

/-- A record applied where the counters stand at 0, as they do at every pull. -/
theorem takeRecord (h : s.Inv) (f : FrameRecord) (hm : s.mode ≠ .none) (hip : s.interpPeriod = 0#3)
    (hsip : s.sampleInPeriod = 0#5) : (Machine.takeRecord hw f s).Inv := by
  have htgt := takeRecord_tgt_legal f h.tgtLegal
  obtain ⟨hip', hsip'⟩ := takeRecord_counters_zero f hip hsip
  obtain ⟨v, e, sp, ip, sip, heq⟩ := takeRecord_effect hw f s
  rw [heq] at htgt hip' hsip' ⊢
  exact
    { h with
      tgtLegal := htgt
      sampleLegal := by rw [hsip']; decide
      idleCounters := fun _ => ⟨hip', hsip'⟩
      hasSource := fun _ => hm }

theorem pulled (h : s.Inv) (hip : s.interpPeriod = 0#3) (hsip : s.sampleInPeriod = 0#5) (hp : Pulled s t) : t.Inv := by
  cases hp with
  | noSource _ => exact h
  | streamEnded _ => exact h.stopSpeaking hip hsip
  | streamMalformed _ => exact (h.raise _).stopSpeaking hip hsip
  | streamFrame f n hm _ hle => exact (h.setBitpos hm hle).takeRecord f (by simp [hm]) hip hsip
  | queueRecord f hm hlt => exact (h.setFqIndex_succ hm hlt).takeRecord f (by simp [hm]) hip hsip
  | queueDecay hm hge => exact (h.markDecay hm hge).takeRecord .silence (by simp [hm]) hip hsip
  | queueEnded _ => exact h.stopSpeaking hip hsip

/-! ### The writes of the commands -/

theorem reset : State.reset.Inv where
  curLegal := legalParams_zero
  tgtLegal := legalParams_zero
  sampleLegal := by decide
  cursorLegal := by decide
  noiseLegal := by decide
  lastDelay := rfl
  cursorInStream := Nat.le_refl 0
  memCanonical := rfl
  memInside := rfl
  queueCursor := Nat.le_refl 0
  decayLast := nofun
  idleCounters := fun _ => ⟨rfl, rfl⟩
  hasSource := nofun
  onlyBits := fun _ => ⟨rfl, rfl, rfl⟩
  onlyQueue := fun _ => ⟨rfl, rfl, rfl⟩

theorem installBits (h : s.Inv) (bytes : List Byte) : (s.installBits bytes).Inv :=
  { h with
    cursorInStream := Nat.zero_le _
    memCanonical := Memory.wf_ofBytes bytes
    memInside := Memory.within_ofBytes bytes
    queueCursor := Nat.le_refl 0
    decayLast := nofun
    idleCounters := nofun
    hasSource := fun _ => by simp
    onlyBits := fun hne => absurd rfl hne
    onlyQueue := fun _ => ⟨rfl, rfl, rfl⟩ }

theorem installFrames (h : s.Inv) (frames : List FrameRecord) : (s.installFrames frames).Inv :=
  { h with
    cursorInStream := Nat.le_refl 0
    memCanonical := rfl
    memInside := rfl
    queueCursor := Nat.zero_le _
    decayLast := nofun
    idleCounters := nofun
    hasSource := fun _ => by simp
    onlyBits := fun _ => ⟨rfl, rfl, rfl⟩
    onlyQueue := fun hne => absurd rfl hne }

theorem setExcitation (h : s.Inv) {cursor : BitVec 8} {noise : BitVec 17} (hc : cursor.toNat ≤ 158)
    (hn : noise ≠ 0#17) : (s.setExcitation cursor noise).Inv :=
  { h with
    cursorLegal := hc
    noiseLegal := hn }

theorem setDelay (h : s.Inv) {v : Vector Delay 11} (hv : v[10] = 0#40) : (s.setDelay v).Inv :=
  { h with lastDelay := hv }

theorem sampled (h : s.Inv) {d' : Vector Delay 11} (hd : d'[10] = s.d[10]) : (s.sampled d').Inv :=
  have hcursor := advanceCursor_le (effectivePitch_le h.curLegal h.tgtLegal) s.pitchCursor
  (h.setExcitation hcursor (exciteNoise_ne_zero _ h.noiseLegal)).setDelay (hd.trans h.lastDelay)

theorem setCounters (h : s.Inv) (hs : s.speaking = true) (ip : Nat) {sip : Nat} (hsip : sip < 25) :
    (s.setCounters ip sip).Inv :=
  { h with
    sampleLegal := by simp; omega
    idleCounters := fun hidle => absurd (hs.symm.trans hidle) nofun }

theorem promote (h : s.Inv) : s.promote.Inv := { h with curLegal := h.tgtLegal }

theorem pcmWrite (h : s.Inv) (v : Int) : (s.pcmWrite v).Inv := { h with }

theorem setStatusOut (h : s.Inv) (r : StatusReport) : (s.setStatusOut r).Inv := { h with }

theorem dropCommand (h : s.Inv) : s.dropCommand.Inv := { h with }

/-- Every host command that completes keeps the invariant; a frame instruction on its own need not, since STOP inside a
frame leaves the counters where they stand. -/
theorem completes (h : s.Inv) {i : Instr} (hi : i.frame? = none) (hc : Completes s i t) : t.Inv := by
  cases hc with
  | frame _ f hf => rw [hi] at hf; cases hf
  | reset => exact { reset with }
  | load bytes hs =>
    obtain ⟨hip, hsip⟩ := h.idleCounters hs
    exact (h.installBits bytes).pulled hip hsip (pulled_pull _)
  | loadFrames frames hs =>
    obtain ⟨hip, hsip⟩ := h.idleCounters hs
    exact (h.installFrames frames).pulled hip hsip (pulled_pull _)
  | idleStep _ => exact h.pcmWrite 0
  | insideFrame d' v ip sip hs hd _ _ hsip =>
    exact ((h.sampled hd).setCounters (by simpa using hs) ip (hsip h.sampleLegal)).pcmWrite v
  | frameEnd d' v hs hd _ =>
    have hend := ((h.sampled hd).setCounters (by simpa using hs) 0 (show 0 < 25 by decide)).promote
    exact (hend.pulled (by simp) (by simp) (pulled_pull _)).pcmWrite v
  | status => exact h.setStatusOut _

end State.Inv

end Sys2Proof.Machine
end

section
/-! The obligation about the invariant. -/

namespace Sys2Proof.Proofs

open Sys2Proof Sys2Proof.Machine

/-- Settles O58: a step runs a host command, and every host command keeps the invariant. -/
theorem stepKeepsInvariant : Obligations.StepKeepsInvariant := by
  intro s t h hstep
  have hcommand : s.nextCommand.toInstr.frame? = none := by cases s.nextCommand <;> rfl
  exact h.dropCommand.completes hcommand (completes_of_exec hstep)

end Sys2Proof.Proofs
end

-- Proofs of the memory family: the bitstream as one little-endian integer, and the output stream.
section
/-! Bit and field reads of a loaded buffer against the stream read as one little-endian integer (20_memory.md R62 to R64), and what
a record leaves of the output stream. -/

namespace Sys2Proof.Machine

open Sys2Proof

/-- R62 as the spec writes it: shift the byte, keep its lowest bit. -/
theorem bit_toNat (m : Memory) (b : Nat) : (m.bit b).toNat = (m.read (b / 8)).toNat >>> (b % 8) &&& 1 := by
  rw [Memory.bit, ← BitVec.testBit_toNat, Nat.toNat_testBit, Nat.and_one_is_mod, Nat.shiftRight_eq_div_pow]

/-- Bit `b` of the stream integer is bit `b mod 8` of byte `b div 8`; past the stream it is 0, as an unlisted byte is. -/
theorem streamNat_testBit (bytes : List Byte) (b : Nat) :
    (streamNat bytes).testBit b = (bytes.getD (b / 8) Memory.unlisted).getLsbD (b % 8) := by
  induction bytes generalizing b with
  | nil => simp [streamNat, Memory.unlisted]
  | cons v rest ih =>
    have hsplit : streamNat (v :: rest) = 2 ^ 8 * streamNat rest + v.toNat := Nat.add_comm _ _
    rw [hsplit, Nat.testBit_two_pow_mul_add _ v.isLt]
    split
    · next hb => rw [Nat.div_eq_of_lt hb, Nat.mod_eq_of_lt hb, BitVec.testBit_toNat]; rfl
    · next hb =>
      obtain ⟨c, rfl⟩ := Nat.exists_eq_add_of_le' (Nat.le_of_not_lt hb)
      rw [Nat.add_sub_cancel, ih, Nat.add_div_right _ (by decide), Nat.add_mod_right]; rfl

/-- `Bit(b)` of a loaded buffer is bit `b` of the stream integer. -/
theorem bit_ofBytes (bytes : List Byte) (b : Nat) : (Memory.ofBytes bytes).bit b = (streamNat bytes).testBit b := by
  rw [Memory.bit, Memory.read_ofBytes, streamNat_testBit]

/-- A memory whose bits are those of `S` reads as slices of `S`. -/
theorem readBits_eq_slice {m : Memory} {S : Nat} (h : ∀ b, m.bit b = S.testBit b) (pos w : Nat) :
    m.readBits pos w = (S >>> pos) % 2 ^ w := by
  induction w with
  | zero => simp [Memory.readBits, Nat.mod_one]
  | succ w ih =>
    rw [Memory.readBits, ih, h, ← Nat.testBit_shiftRight, Nat.toNat_testBit, Nat.shiftLeft_eq, Nat.mul_comm, Nat.mod_pow_succ]

/-- No record writes the output stream (R69). -/
@[simp] theorem takeRecord_pcm (f : FrameRecord) (s : State) : (takeRecord hw f s).pcm = s.pcm := by
  obtain ⟨_, _, _, _, _, h⟩ := takeRecord_effect hw f s; rw [h]

end Sys2Proof.Machine
end

section
/-! The obligations about the bitstream and the output stream. -/

namespace Sys2Proof.Proofs

open Sys2Proof Sys2Proof.Machine

/-- Settles O21: bit by bit; past the stream both sides read 0, so that the field lies inside it is not needed. -/
theorem readBitsIsStreamSlice : Obligations.ReadBitsIsStreamSlice := by
  intro bytes pos w _
  rw [readBits_eq_slice (bit_ofBytes bytes), Nat.and_two_pow_sub_one_eq_mod]

/-- Settles O56: a STEP ends in one `PcmWrite`, idle or speaking; no record, pull or other command writes the output. -/
theorem oneSamplePerStep : Obligations.OneSamplePerStep := by
  intro i s t h
  cases completes_of_exec h with
  | frame _ f hf =>
    have hne : i ≠ .step := by rintro rfl; cases hf
    exact ⟨fun hstep => absurd hstep hne, fun _ => takeRecord_pcm f s⟩
  | reset => exact ⟨nofun, fun _ => rfl⟩
  | load bytes _ => exact ⟨nofun, fun _ => by simp⟩
  | loadFrames frames _ => exact ⟨nofun, fun _ => by simp⟩
  | idleStep _ => exact ⟨fun _ => ⟨BitVec.ofInt 16 0, by simp⟩, fun hne => absurd rfl hne⟩
  | insideFrame d' v ip sip _ _ _ _ _ => exact ⟨fun _ => ⟨BitVec.ofInt 16 v, by simp⟩, fun hne => absurd rfl hne⟩
  | frameEnd d' v _ _ _ => exact ⟨fun _ => ⟨BitVec.ofInt 16 v, by simp⟩, fun hne => absurd rfl hne⟩
  | status => exact ⟨nofun, fun _ => rfl⟩

/-- Settles O20, by the rule for one bit. -/
theorem bitIsLsbFirst : Obligations.BitIsLsbFirst := bit_toNat

end Sys2Proof.Proofs
end

-- Proofs of the encoding family: a record against its bits, and a list of records against its stream.
section
/-! The decoder's answer as an equation per kind of frame, a field as the bits it is put as, and from these the rule that joins
decoder and encoder: a frame is decoded exactly where its encoding stands (30_encoding.md R92, R100, R101). -/

namespace Sys2Proof

open Sys2Proof.Machine

variable {m : Memory} {len pos : Nat}

/-! ### What the decoder answers for each kind of frame (R92) -/

theorem decodeFrame_stop (hfit : pos + 4 ≤ 8 * len) (he : energyAt m pos = 15) :
    decodeFrame m len pos = .frame .stop (pos + 4) := by
  have h4 := fits_eq_true.mpr hfit
  rw [decodeFrame, if_neg (by omega), h4, if_neg nofun, if_pos he]

theorem decodeFrame_silence (hfit : pos + 4 ≤ 8 * len) (he : energyAt m pos = 0) :
    decodeFrame m len pos = .frame .silence (pos + 4) := by
  have h4 := fits_eq_true.mpr hfit
  rw [decodeFrame, if_neg (by omega), h4, if_neg nofun, if_neg (by omega), if_pos he]

section

variable (h15 : energyAt m pos ≠ 15) (h0 : energyAt m pos ≠ 0)
include h15 h0

/-- Past the tests for STOP and SILENCE the repeat bit decides. -/
theorem decodeFrame_repeatFrame (hfit : pos + 11 ≤ 8 * len) (hr : repeatAt m pos = 1) :
    decodeFrame m len pos = .frame (.repeatFrame (energyAt m pos) (pitchAt m pos)) (pos + 11) := by
  have h4 : fits len pos 4 = true := fits_eq_true.mpr (by omega)
  have h11 := fits_eq_true.mpr hfit
  rw [decodeFrame, if_neg (by omega), h4, if_neg nofun, if_neg h15, if_neg h0, h11, if_neg nofun, if_pos hr]

theorem decodeFrame_unvoiced (hfit : pos + 29 ≤ 8 * len) (hr : repeatAt m pos ≠ 1) (hp : pitchAt m pos = 0) :
    decodeFrame m len pos = .frame (.unvoiced (energyAt m pos) (ksAt 4 m pos)) (pos + 29) := by
  have h4 : fits len pos 4 = true := fits_eq_true.mpr (by omega)
  have h11 : fits len pos 11 = true := fits_eq_true.mpr (by omega)
  have h29 := fits_eq_true.mpr hfit
  rw [decodeFrame, if_neg (by omega), h4, if_neg nofun, if_neg h15, if_neg h0, h11, if_neg nofun, if_neg hr, h29,
    if_neg nofun, if_pos hp]

theorem decodeFrame_voiced (hfit : pos + 50 ≤ 8 * len) (hr : repeatAt m pos ≠ 1) (hp : pitchAt m pos ≠ 0) :
    decodeFrame m len pos = .frame (.voiced (energyAt m pos) (pitchAt m pos) (ksAt 10 m pos)) (pos + 50) := by
  have h4 : fits len pos 4 = true := fits_eq_true.mpr (by omega)
  have h11 : fits len pos 11 = true := fits_eq_true.mpr (by omega)
  have h29 : fits len pos 29 = true := fits_eq_true.mpr (by omega)
  have h50 := fits_eq_true.mpr hfit
  rw [decodeFrame, if_neg (by omega), h4, if_neg nofun, if_neg h15, if_neg h0, h11, if_neg nofun, if_neg hr, h29,
    if_neg nofun, if_neg hp, h50, if_neg nofun]

end

theorem repeatAt_eq_bit (m : Memory) (pos : Nat) : repeatAt m pos = (m.bit (pos + 4)).toNat := by
  simp [repeatAt, Memory.readBits]

/-! ### The bits that stand at an address -/

/-- The bits of the list stand in the memory from bit address `pos` on. -/
def Memory.HoldsBits (m : Memory) (pos : Nat) (bits : List Bool) : Prop :=
  ∀ (j : Nat) (h : j < bits.length), m.bit (pos + j) = bits[j]

@[simp] theorem Memory.holdsBits_nil (m : Memory) (pos : Nat) : m.HoldsBits pos [] := nofun

theorem Memory.holdsBits_append (a b : List Bool) :
    m.HoldsBits pos (a ++ b) ↔ m.HoldsBits pos a ∧ m.HoldsBits (pos + a.length) b := by
  constructor
  · intro h
    refine ⟨fun j hj => ?_, fun j hj => ?_⟩
    · rw [h j (by simp; omega), List.getElem_append_left hj]
    · rw [Nat.add_assoc, h (a.length + j) (by simp; omega), List.getElem_append_right (by omega)]
      simp
  · rintro ⟨ha, hb⟩ j hj
    rw [List.length_append] at hj
    rw [List.getElem_append]
    split
    · next hlt => exact ha j hlt
    · next hge => rw [← hb (j - a.length) (by omega)]; congr 1; omega

/-- Bit `j` of a field read is stream bit `pos + j` (20_memory.md R63). -/
theorem Memory.readBits_testBit (m : Memory) (pos w j : Nat) :
    (m.readBits pos w).testBit j = (decide (j < w) && m.bit (pos + j)) := by
  induction w with
  | zero => simp [Memory.readBits]
  | succ w ih =>
    rw [Memory.readBits, Nat.shiftLeft_eq, Nat.mul_comm, Nat.add_comm,
      Nat.testBit_two_pow_mul_add _ (m.readBits_lt pos w), ih]
    split
    · next hlt => simp [hlt, Nat.lt_succ_of_lt hlt]
    · next hge =>
      have hlast : (m.bit (pos + w)).toNat.testBit (j - w) = (decide (j - w = 0) && m.bit (pos + w)) :=
        Nat.testBit_bool_toNat ..
      rw [hlast]
      obtain rfl | hgt := Nat.eq_or_lt_of_not_lt hge
      · simp
      · have hout : ¬ j < w + 1 := by omega
        simp [hout, Nat.sub_ne_zero_of_lt hgt]

/-- `Put` and `ReadBits` are inverse: the bits of a `w`-bit value stand at `pos` exactly when the value is read there. -/
theorem holdsBits_putBits {v : Int} {w : Nat} (h0 : 0 ≤ v) (hv : v < 2 ^ w) :
    m.HoldsBits pos (putBits v w) ↔ (m.readBits pos w : Int) = v := by
  have hlt : v.toNat < 2 ^ w := by zify; rwa [Int.toNat_of_nonneg h0]
  have hcast : (m.readBits pos w : Int) = v ↔ m.readBits pos w = v.toNat := by omega
  rw [hcast]
  constructor
  · intro h
    refine Nat.eq_of_testBit_eq fun j => ?_
    rw [Memory.readBits_testBit]
    by_cases hj : j < w
    · rw [h j (by simpa [putBits] using hj)]; simp [putBits, hj]
    · rw [Nat.testBit_lt_two_pow (hlt.trans_le (Nat.pow_le_pow_right (by decide) (Nat.le_of_not_lt hj)))]; simp [hj]
  · intro h j hj
    have hjw : j < w := by simpa [putBits] using hj
    simp [putBits, ← h, Memory.readBits_testBit, hjw]

/-! ### The K fields -/

/-- Fields of the given widths, read one after another from bit address `pos` on. -/
def readFields (m : Memory) : Nat → List Nat → List Int
  | _, [] => []
  | pos, w :: ws => (m.readBits pos w : Int) :: readFields m (pos + w) ws

/-- The K fields of a frame are the 18 or 39 bits from offset 11 on, read one after another (30_encoding.md R90). -/
theorem ksAt_four_toList (m : Memory) (pos : Nat) : (ksAt 4 m pos).toList = readFields m (pos + 11) (kWidths.take 4) := rfl

theorem ksAt_ten_toList (m : Memory) (pos : Nat) : (ksAt 10 m pos).toList = readFields m (pos + 11) (kWidths.take 10) := rfl

/-- The fields of a list stand at `pos` exactly when reading fields of these widths there gives the list. -/
theorem holdsBits_putKs {ks : List Int} {ws : List Nat} (hlen : ks.length ≤ ws.length)
    (hks : ∀ p ∈ ks.zip ws, 0 ≤ p.1 ∧ p.1 < 2 ^ p.2) :
    m.HoldsBits pos (putKs ks ws) ↔ readFields m pos (ws.take ks.length) = ks := by
  induction ks generalizing ws pos with
  | nil => simp [putKs, readFields]
  | cons k ks ih =>
    cases ws with
    | nil => simp at hlen
    | cons w ws =>
      simp only [List.zip_cons_cons, List.forall_mem_cons] at hks
      obtain ⟨⟨h0, hk⟩, hrest⟩ := hks
      have hlen' : ks.length ≤ ws.length := Nat.le_of_succ_le_succ hlen
      rw [putKs, Memory.holdsBits_append, holdsBits_putBits h0 hk, Laws.EncodeShape.putBits_length, ih hlen' hrest]
      simp [readFields]

/-- A K table has as many entries as its field has values (R6). -/
theorem kCard_eq_two_pow : ∀ i < 10, kCard i = 2 ^ kWidth i := by decide

theorem kIndicesOk_iff {n : Nat} {k : Vector Int n} :
    kIndicesOk k = true ↔ ∀ (i : Nat) (h : i < n), 0 ≤ k[i] ∧ k[i] < (kCard i : Int) := by
  rw [kIndicesOk, decide_eq_true_iff]
  exact ⟨fun h i hi => h ⟨i, hi⟩, fun h i => h i.val i.isLt⟩

/-- Indices within their tables fit their fields. -/
theorem kIndicesOk_fits {n : Nat} {k : Vector Int n} (hn : n ≤ 10) (hk : kIndicesOk k = true) :
    ∀ p ∈ k.toList.zip kWidths, 0 ≤ p.1 ∧ p.1 < 2 ^ p.2 := by
  rw [List.forall_mem_iff_getElem]
  intro i hi
  have hin : i < n := by simp at hi; omega
  have hcard := kCard_eq_two_pow i (by omega)
  obtain ⟨h0, h1⟩ := kIndicesOk_iff.mp hk i hin
  have hwidth : kWidths[i]'(by simp at hi; omega) = kWidth i := by rw [kWidth, List.getD_eq_getElem]
  rw [hcard] at h1
  simpa [hwidth] using And.intro h0 h1

/-- Fields that are read lie within their tables (R66). -/
theorem kIndicesOk_ksAt {n : Nat} (hn : n ≤ 10) (m : Memory) (pos : Nat) : kIndicesOk (ksAt n m pos) = true :=
  kIndicesOk_iff.mpr fun i hi => by
    have := kAt_lt m pos i (by omega)
    simp [ksAt]; omega

theorem holdsBits_putKs_four {k : Vector Int 4} (hk : kIndicesOk k = true) :
    m.HoldsBits (pos + 11) (putKs k.toList kWidths) ↔ ksAt 4 m pos = k := by
  rw [holdsBits_putKs (by simp [kWidths]) (kIndicesOk_fits (by decide) hk), Vector.length_toList, ← ksAt_four_toList,
    Vector.toList_inj]

theorem holdsBits_putKs_ten {k : Vector Int 10} (hk : kIndicesOk k = true) :
    m.HoldsBits (pos + 11) (putKs k.toList kWidths) ↔ ksAt 10 m pos = k := by
  rw [holdsBits_putKs (by simp [kWidths]) (kIndicesOk_fits (by decide) hk), Vector.length_toList, ← ksAt_ten_toList,
    Vector.toList_inj]

/-! ### The encodable records and their bits -/

theorem encodable_repeatFrame {e p : Int} :
    (FrameRecord.repeatFrame e p).encodable = true ↔ (1 ≤ e ∧ e ≤ 14) ∧ 0 ≤ p ∧ p ≤ 63 := by
  simp [FrameRecord.encodable, FrameRecord.hasBits, FrameRecord.wf, speechEnergy, and_assoc]

theorem encodable_unvoiced {e : Int} {k : Vector Int 4} :
    (FrameRecord.unvoiced e k).encodable = true ↔ (1 ≤ e ∧ e ≤ 14) ∧ kIndicesOk k = true := by
  simp [FrameRecord.encodable, FrameRecord.hasBits, FrameRecord.wf, speechEnergy]

theorem encodable_voiced {e p : Int} {k : Vector Int 10} :
    (FrameRecord.voiced e p k).encodable = true ↔ (1 ≤ e ∧ e ≤ 14) ∧ (1 ≤ p ∧ p ≤ 63) ∧ kIndicesOk k = true := by
  simp [FrameRecord.encodable, FrameRecord.hasBits, FrameRecord.wf, speechEnergy, and_assoc]

theorem encode_eq_some_iff {i : Instr} {bits : List Bool} :
    encode i = some bits ↔ ∃ f, i.frame? = some f ∧ f.encodable = true ∧ bits = frameBits f := by
  cases hi : i.frame? with
  | none => simp [encode, hi]
  | some f => simp [encode, hi, @eq_comm _ bits]

@[simp] theorem frame?_toInstr (f : FrameRecord) : f.toInstr.frame? = some f := by cases f <;> rfl

theorem encode_toInstr {f : FrameRecord} (hf : f.encodable = true) : encode f.toInstr = some (frameBits f) :=
  encode_eq_some_iff.mpr ⟨f, frame?_toInstr f, hf, rfl⟩

@[simp] theorem length_frameBits_stop : (frameBits .stop).length = 4 := rfl

@[simp] theorem length_frameBits_silence : (frameBits .silence).length = 4 := rfl

@[simp] theorem length_frameBits_repeatFrame (e p : Int) : (frameBits (.repeatFrame e p)).length = 11 := by
  simp [frameBits, Laws.EncodeShape.putBits_length]

@[simp] theorem length_frameBits_unvoiced (e : Int) (k : Vector Int 4) : (frameBits (.unvoiced e k)).length = 29 := by
  simp [frameBits, Laws.EncodeShape.putBits_length, Laws.EncodeShape.putKs_four]

@[simp] theorem length_frameBits_voiced (e p : Int) (k : Vector Int 10) : (frameBits (.voiced e p k)).length = 50 := by
  simp [frameBits, Laws.EncodeShape.putBits_length, Laws.EncodeShape.putKs_ten]

/-! ### Where the bits of a record stand, its fields are read (R90, R100) -/

theorem holdsBits_stop : m.HoldsBits pos (frameBits .stop) ↔ energyAt m pos = 15 := by
  rw [frameBits, holdsBits_putBits (by decide) (by decide), energyAt]; omega

theorem holdsBits_silence : m.HoldsBits pos (frameBits .silence) ↔ energyAt m pos = 0 := by
  rw [frameBits, holdsBits_putBits (by decide) (by decide), energyAt]; omega

theorem length_head (e r p : Int) : (putBits e 4 ++ putBits r 1 ++ putBits p 6).length = 11 := by
  simp [Laws.EncodeShape.putBits_length]

/-- The three fields every longer frame begins with; `r` is the repeat bit. -/
theorem holdsBits_head {e r p : Int} (he : 0 ≤ e ∧ e < 16) (hr : 0 ≤ r ∧ r < 2) (hp : 0 ≤ p ∧ p < 64) :
    m.HoldsBits pos (putBits e 4 ++ putBits r 1 ++ putBits p 6) ↔
      (energyAt m pos : Int) = e ∧ (repeatAt m pos : Int) = r ∧ (pitchAt m pos : Int) = p := by
  rw [Memory.holdsBits_append, Memory.holdsBits_append, holdsBits_putBits he.1 he.2, holdsBits_putBits hr.1 hr.2,
    holdsBits_putBits hp.1 hp.2, and_assoc, List.length_append, Laws.EncodeShape.putBits_length,
    Laws.EncodeShape.putBits_length]
  rfl

theorem holdsBits_repeatFrame {e p : Int} (h : (FrameRecord.repeatFrame e p).encodable = true) :
    m.HoldsBits pos (frameBits (.repeatFrame e p)) ↔
      (energyAt m pos : Int) = e ∧ repeatAt m pos = 1 ∧ (pitchAt m pos : Int) = p := by
  obtain ⟨he, hp⟩ := encodable_repeatFrame.mp h
  rw [frameBits, holdsBits_head (by omega) (by decide) (by omega)]
  norm_cast

theorem holdsBits_unvoiced {e : Int} {k : Vector Int 4} (h : (FrameRecord.unvoiced e k).encodable = true) :
    m.HoldsBits pos (frameBits (.unvoiced e k)) ↔
      (energyAt m pos : Int) = e ∧ repeatAt m pos = 0 ∧ pitchAt m pos = 0 ∧ ksAt 4 m pos = k := by
  obtain ⟨he, hk⟩ := encodable_unvoiced.mp h
  rw [frameBits, Memory.holdsBits_append, holdsBits_head (by omega) (by decide) (by decide), length_head,
    holdsBits_putKs_four hk]
  norm_cast
  rw [and_assoc, and_assoc]

theorem holdsBits_voiced {e p : Int} {k : Vector Int 10} (h : (FrameRecord.voiced e p k).encodable = true) :
    m.HoldsBits pos (frameBits (.voiced e p k)) ↔
      (energyAt m pos : Int) = e ∧ repeatAt m pos = 0 ∧ (pitchAt m pos : Int) = p ∧ ksAt 10 m pos = k := by
  obtain ⟨he, hp, hk⟩ := encodable_voiced.mp h
  rw [frameBits, Memory.holdsBits_append, holdsBits_head (by omega) (by decide) (by omega), length_head,
    holdsBits_putKs_ten hk]
  norm_cast
  rw [and_assoc, and_assoc]

/-! ### Decoder and encoder agree -/

/-- An encodable record is decoded wherever its bits stand inside the stream. -/
theorem decodeFrame_of_holdsBits {f : FrameRecord} (hf : f.encodable = true)
    (hfit : pos + (frameBits f).length ≤ 8 * len) (hb : m.HoldsBits pos (frameBits f)) :
    decodeFrame m len pos = .frame f (pos + (frameBits f).length) := by
  cases f with
  | stop => exact decodeFrame_stop hfit (holdsBits_stop.mp hb)
  | silence => exact decodeFrame_silence hfit (holdsBits_silence.mp hb)
  | repeatFrame e p =>
    obtain ⟨he, -⟩ := encodable_repeatFrame.mp hf
    obtain ⟨rfl, hr, rfl⟩ := (holdsBits_repeatFrame hf).mp hb
    rw [length_frameBits_repeatFrame] at hfit ⊢
    exact decodeFrame_repeatFrame (by omega) (by omega) hfit hr
  | unvoiced e k =>
    obtain ⟨he, -⟩ := encodable_unvoiced.mp hf
    obtain ⟨rfl, hr, hp, rfl⟩ := (holdsBits_unvoiced hf).mp hb
    rw [length_frameBits_unvoiced] at hfit ⊢
    exact decodeFrame_unvoiced (by omega) (by omega) hfit (by omega) hp
  | voiced e p k =>
    obtain ⟨he, hpitch, -⟩ := encodable_voiced.mp hf
    obtain ⟨rfl, hr, rfl, rfl⟩ := (holdsBits_voiced hf).mp hb
    rw [length_frameBits_voiced] at hfit ⊢
    exact decodeFrame_voiced (by omega) (by omega) hfit (by omega) (by omega)
  | values e p k => cases hf

/-- The record the decoder answers is encodable, and its bits are those that stand where it was read. -/
theorem holdsBits_of_decodeFrame {f : FrameRecord} {next : Nat} (h : decodeFrame m len pos = .frame f next) :
    f.encodable = true ∧ m.HoldsBits pos (frameBits f) ∧ next = pos + (frameBits f).length ∧ next ≤ 8 * len := by
  have hlt := energyAt_lt m pos
  have hrlt := repeatAt_lt m pos
  have hplt := pitchAt_lt m pos
  obtain ⟨hend, -⟩ | ⟨hmal, -⟩ | ⟨g, n, hg, hfit, hkind⟩ := decodeFrame_cases m len pos
  · rw [hend] at h; cases h
  · rw [hmal] at h; cases h
  rw [hg] at h
  cases h
  obtain ⟨rfl, rfl, he⟩ | ⟨rfl, rfl, he⟩ | ⟨rfl, rfl, h15, h0, hr⟩ | ⟨rfl, rfl, h15, h0, hr, hp⟩ |
    ⟨rfl, rfl, h15, h0, hr, hp⟩ := hkind
  · exact ⟨rfl, holdsBits_stop.mpr he, rfl, hfit⟩
  · exact ⟨rfl, holdsBits_silence.mpr he, rfl, hfit⟩
  · have hf : (FrameRecord.repeatFrame (energyAt m pos) (pitchAt m pos)).encodable = true :=
      encodable_repeatFrame.mpr ⟨⟨by omega, by omega⟩, by omega, by omega⟩
    exact ⟨hf, (holdsBits_repeatFrame hf).mpr ⟨rfl, hr, rfl⟩, by simp, hfit⟩
  · have hf : (FrameRecord.unvoiced (energyAt m pos) (ksAt 4 m pos)).encodable = true :=
      encodable_unvoiced.mpr ⟨⟨by omega, by omega⟩, kIndicesOk_ksAt (by decide) m pos⟩
    exact ⟨hf, (holdsBits_unvoiced hf).mpr ⟨rfl, by omega, hp, rfl⟩, by simp, hfit⟩
  · have hf : (FrameRecord.voiced (energyAt m pos) (pitchAt m pos) (ksAt 10 m pos)).encodable = true :=
      encodable_voiced.mpr ⟨⟨by omega, by omega⟩, ⟨by omega, by omega⟩, kIndicesOk_ksAt (by decide) m pos⟩
    exact ⟨hf, (holdsBits_voiced hf).mpr ⟨rfl, by omega, rfl, rfl⟩, by simp, hfit⟩

end Sys2Proof
end

section
/-! A list of records against its stream: packing keeps the bits in place, and the frames are decoded one after another
(30_encoding.md R100, R101). -/

namespace Sys2Proof

variable {m : Memory} {len pos : Nat}

theorem bitsToNat_testBit (bits : List Bool) (j : Nat) : (bitsToNat bits).testBit j = bits.getD j false := by
  induction bits generalizing j with
  | nil => simp [bitsToNat]
  | cons b rest ih =>
    have hcons : bitsToNat (b :: rest) = 2 ^ 1 * bitsToNat rest + b.toNat := Nat.add_comm _ _
    rw [hcons, Nat.testBit_two_pow_mul_add _ b.toNat_lt]
    cases j with
    | zero => rw [if_pos (by decide), Nat.testBit_bool_toNat]; rfl
    | succ j => simp [ih]

theorem length_packBits (bits : List Bool) : (packBits bits).length = (bits.length + 7) / 8 := by simp [packBits]

/-- The stream of packed bits holds them from its first bit on (R100). -/
theorem holdsBits_packBits (bits : List Bool) : (Memory.ofBytes (packBits bits)).HoldsBits 0 bits := by
  intro b hb
  have hbyte : b / 8 < (bits.length + 7) / 8 := by omega
  have hplace : 8 * (b / 8) + b % 8 = b := Nat.div_add_mod b 8
  have hmod : b % 8 < 8 := Nat.mod_lt _ (by decide)
  have hread : (packBits bits).getD (b / 8) Memory.unlisted =
      BitVec.ofNat 8 (bitsToNat ((bits.drop (8 * (b / 8))).take 8)) := by simp [packBits, hbyte]
  rw [Nat.zero_add, Memory.bit, Memory.read_ofBytes, hread, BitVec.getLsbD_ofNat, bitsToNat_testBit]
  simp [hmod, hplace, hb]

/-- Every frame takes at least 4 bits. -/
theorem four_le_length_frameBits {f : FrameRecord} (hf : f.encodable = true) : 4 ≤ (frameBits f).length := by
  cases f with
  | values e p k => cases hf
  | _ => simp

theorem four_mul_length_le {F : List FrameRecord} (hF : ∀ f ∈ F, f.encodable = true) :
    4 * F.length ≤ (F.flatMap frameBits).length := by
  induction F with
  | nil => simp
  | cons f F ih =>
    rw [List.forall_mem_cons] at hF
    have hhead := four_le_length_frameBits hF.1
    have htail := ih hF.2
    rw [List.flatMap_cons, List.length_append, List.length_cons]
    omega

/-- STOP ends `DecodeAll`. -/
theorem decodeFrom_stop {next : Nat} (fuel : Nat) (h : decodeFrame m len pos = .frame .stop next) :
    decodeFrom m len (fuel + 1) pos = ([.stop], false) := by rw [decodeFrom, h]

/-- After any other frame `DecodeAll` goes on at the address after it. -/
theorem decodeFrom_frame {f : FrameRecord} {next : Nat} (fuel : Nat) (h : decodeFrame m len pos = .frame f next)
    (hf : f ≠ .stop) :
    decodeFrom m len (fuel + 1) pos = (f :: (decodeFrom m len fuel next).1, (decodeFrom m len fuel next).2) := by
  rw [decodeFrom, h]
  cases f with
  | stop => exact absurd rfl hf
  | _ => rfl

/-- Frames with no STOP among them, followed by a STOP, are decoded one after another wherever their bits stand. -/
theorem decodeFrom_of_holdsBits {F : List FrameRecord} (hF : ∀ f ∈ F, f.encodable = true) (hstop : FrameRecord.stop ∉ F)
    {fuel : Nat} (hfuel : F.length < fuel) (hfit : pos + ((F ++ [FrameRecord.stop]).flatMap frameBits).length ≤ 8 * len)
    (hb : m.HoldsBits pos ((F ++ [FrameRecord.stop]).flatMap frameBits)) :
    decodeFrom m len fuel pos = (F ++ [.stop], false) := by
  obtain ⟨extra, rfl⟩ := Nat.exists_eq_add_of_lt hfuel
  clear hfuel
  induction F generalizing pos with
  | nil =>
    have hbits : ([] ++ [FrameRecord.stop]).flatMap frameBits = frameBits .stop := rfl
    rw [hbits] at hfit hb
    exact decodeFrom_stop _ (decodeFrame_of_holdsBits rfl hfit hb)
  | cons f F ih =>
    rw [List.forall_mem_cons] at hF
    rw [List.mem_cons, not_or] at hstop
    rw [List.cons_append, List.flatMap_cons] at hfit hb
    rw [List.length_append] at hfit
    obtain ⟨hhead, htail⟩ := (Memory.holdsBits_append _ _).mp hb
    rw [decodeFrom_frame _ (decodeFrame_of_holdsBits hF.1 (by omega) hhead) (Ne.symm hstop.1), List.length_cons,
      Nat.add_right_comm, ih hF.2 hstop.2 (by omega) htail]
    rfl

/-- What the encoder writes are records of its argument, none of them STOP, and then one STOP. -/
theorem withStop_eq_append {F : List FrameRecord} (hstop : FrameRecord.stop ∉ F.dropLast) :
    ∃ G, withStop F = G ++ [.stop] ∧ FrameRecord.stop ∉ G ∧ G ⊆ F := by
  unfold withStop
  split
  · next hlast =>
    exact ⟨F.dropLast, (List.dropLast_append_getLast? _ hlast).symm, hstop, List.dropLast_subset F⟩
  · next hlast =>
    refine ⟨F, rfl, fun hmem => ?_, fun _ h => h⟩
    have hne := List.ne_nil_of_mem hmem
    rw [← List.dropLast_append_getLast hne, List.mem_append, List.mem_singleton] at hmem
    exact hmem.elim hstop fun heq => hlast (by rw [List.getLast?_eq_some_getLast hne, ← heq])

/-- The encoder refuses no list of encodable records. -/
theorem encodeStream_of_encodable {F : List FrameRecord} (hF : ∀ f ∈ F, f.encodable = true) :
    encodeStream F = some (packBits ((withStop F).flatMap frameBits)) := if_pos (List.all_eq_true.mpr hF)

/-- R101: what is packed is decoded again. -/
theorem decodeAll_packBits {F : List FrameRecord} (hF : ∀ f ∈ F, f.encodable = true) (hstop : FrameRecord.stop ∉ F) :
    decodeAll (packBits ((F ++ [FrameRecord.stop]).flatMap frameBits)) = (F ++ [.stop], false) := by
  have hcount := four_mul_length_le hF
  rw [decodeAll, length_packBits]
  refine decodeFrom_of_holdsBits hF hstop ?_ (by omega) (holdsBits_packBits _)
  rw [List.flatMap_append, List.length_append]
  omega

end Sys2Proof
end

section
/-! The obligations about the encoding. -/

namespace Sys2Proof.Proofs

open Sys2Proof Sys2Proof.Machine

/-- Settles O13: an encoding is the bits of an encodable record, which are decoded wherever they stand. -/
theorem encodedFrameDecodes : Obligations.EncodedFrameDecodes := by
  refine ⟨fun f hf => ⟨frameBits f, encode_toInstr hf⟩, fun i bits h m len pos hfit hb => ?_⟩
  obtain ⟨f, hi, hf, rfl⟩ := encode_eq_some_iff.mp h
  exact ⟨f, hi, decodeFrame_of_holdsBits hf hfit hb⟩

/-- Settles O17: the encoder packs the list with its STOP, and the packed frames are decoded one after another. -/
theorem streamRoundTrip : Obligations.StreamRoundTrip := by
  intro F hF hstop
  refine ⟨_, encodeStream_of_encodable hF, ?_⟩
  obtain ⟨G, hG, hGstop, hGF⟩ := withStop_eq_append hstop
  rw [hG, decodeAll_packBits (fun f hf => hF f (hGF hf)) hGstop, ← hG, withStop]

/-- Settles O14, by what the decoder's answer says of the bits. -/
theorem decodedFrameReencodes : Obligations.DecodedFrameReencodes := by
  intro m len pos next f h
  obtain ⟨hf, hb, hnext, hfit⟩ := holdsBits_of_decodeFrame h
  exact ⟨frameBits f, encode_toInstr hf, hnext, hfit, fun j hj => (hb j hj).symm⟩

/-- Settles O15: one clause per kind of frame, the fields written out at their offsets. -/
theorem decoderTellsKindAndLength : Obligations.DecoderTellsKindAndLength := by
  intro m len pos
  have hrepeat := repeatAt_eq_bit m pos
  refine ⟨decodeFrame_stop, decodeFrame_silence, fun hfit h15 h0 hr => ?_, fun hfit h15 h0 hr hp => ?_,
    fun hfit h15 h0 hr hp => ?_⟩
  · exact decodeFrame_repeatFrame h15 h0 hfit (by rw [hrepeat, hr]; rfl)
  · exact decodeFrame_unvoiced h15 h0 hfit (by rw [hrepeat, hr]; decide) hp
  · exact decodeFrame_voiced h15 h0 hfit (by rw [hrepeat, hr]; decide) hp

/-- Settles O18: a record is encodable exactly when it has bits and is well-formed. -/
theorem encoderRefusesMalformed : Obligations.EncoderRefusesMalformed := by
  intro F
  have hnot (f : FrameRecord) : ¬ f.encodable = true ↔ f.hasBits = false ∨ f.wf = false := by
    rw [FrameRecord.encodable, Bool.not_eq_true, Bool.and_eq_false_iff]
  simp [encodeStream, ← hnot]

/-- Settles O12: each word is decoded by evaluation. -/
theorem knownWordsDecode : Obligations.KnownWordsDecode := by
  refine ⟨?_, ?_, ?_, ?_, ?_⟩ <;> decide

end Sys2Proof.Proofs
end

-- Proofs of the frame family: what a record whose operands are in range writes, and the decoder's three answers.
section
/-! Records whose operands are in range: no clamp acts, so nothing is raised and the targets hold the table entries as they are
(40_frame_decoder.md R121 to R126, 44_engine.md R233, R234). -/

namespace Sys2Proof.Machine

open Sys2Proof

/-! ### Operands in range are their own clamped values -/

theorem clamp_of_mem {v lo hi : Int} (h0 : lo ≤ v) (h1 : v ≤ hi) : clamp v lo hi = v := by
  rw [clamp_eq v lo hi (by omega)]; omega

theorem kIndices_of_ok {n : Nat} {k : Vector Int n} (hk : kIndicesOk k = true) : kIndices k = k := by
  ext i hi
  obtain ⟨h0, h1⟩ := kIndicesOk_iff.mp hk i hi
  exact (kIndices_getElem k ⟨i, hi⟩).trans (clamp_of_mem h0 (Int.le_sub_one_of_lt h1))

theorem kValues_of_ok {k : Vector Int 10} (hk : kValuesOk k = true) : kValues k = k := by
  rw [kValuesOk, decide_eq_true_iff] at hk
  ext i hi
  obtain ⟨h0, h1⟩ := hk ⟨i, hi⟩
  exact (kValues_getElem k ⟨i, hi⟩).trans (clamp_of_mem h0 h1)

/-! ### A record in range is applied as it is -/

section
variable {e p : Int} (s : State)

theorem takeRepeat_of_mem (he0 : 0 ≤ e) (he1 : e ≤ 15) (hp0 : 0 ≤ p) (hp1 : p ≤ 63) :
    takeRepeat hw e p s = applyRepeat hw e p s := by
  simp [takeRepeat, energyIndex, pitchIndex, clamp_of_mem he0 he1, clamp_of_mem hp0 hp1, State.raiseIf]

theorem takeUnvoiced_of_mem {k : Vector Int 4} (he0 : 0 ≤ e) (he1 : e ≤ 15) (hk : kIndicesOk k = true) :
    takeUnvoiced hw e k s = applyUnvoiced hw e k s := by
  simp [takeUnvoiced, energyIndex, clamp_of_mem he0 he1, kIndices_of_ok hk, State.raiseIf]

theorem takeVoiced_of_mem {k : Vector Int 10} (he0 : 0 ≤ e) (he1 : e ≤ 15) (hp0 : 0 ≤ p) (hp1 : p ≤ 63)
    (hk : kIndicesOk k = true) : takeVoiced hw e p k s = applyVoiced hw e p k s := by
  simp [takeVoiced, energyIndex, pitchIndex, clamp_of_mem he0 he1, clamp_of_mem hp0 hp1, kIndices_of_ok hk, State.raiseIf]

theorem takeValues_err_of_mem {k : Vector Int 10} (he0 : 0 ≤ e) (he1 : e ≤ 114) (hp0 : 0 ≤ p) (hp1 : p ≤ 159)
    (hk : kValuesOk k = true) : (takeValues e p k s).err = s.err := by
  simp [takeValues, energyValue, pitchValue, clamp_of_mem he0 he1, clamp_of_mem hp0 hp1, kValues_of_ok hk]

end

/-! ### The targets it writes -/

/-- A K index within its table reads its entry with no bit lost. -/
theorem romK_toInt_of_ok {n : Nat} (hn : n ≤ 10) {k : Vector Int n} (hk : kIndicesOk k = true) (i : Fin n) :
    (romK hw i.val k[i] : Param).toInt = hw.kTable i.val k[i].toNat := by
  obtain ⟨h0, h1⟩ := kIndicesOk_iff.mp hk i.val i.isLt
  exact romK_toInt i.val (by omega) _ h0 h1

/-- UNVOICED writes pitch entry 0, whose value is 0 (R8, R125). -/
theorem romPitch_zero : (romPitch hw 0 : Param).toInt = 0 := by
  rw [romPitch_toInt 0 (by decide) (by decide)]; exact hw_admissible.pitchZero

theorem applyUnvoiced_low (e : Int) (k : Vector Int 4) (s : State) (i : Fin 4) :
    (applyUnvoiced hw e k s).tgt[2 + i.val] = romK hw i.val k[i] := by
  have hi : i.val < 4 := i.isLt
  exact (targets_k _ _ _ ⟨i.val, by omega⟩).trans (dif_pos hi)

theorem applyUnvoiced_high (e : Int) (k : Vector Int 4) (s : State) (i : Fin 6) :
    (applyUnvoiced hw e k s).tgt[6 + i.val] = 0#paramW := by
  have hidx : 6 + i.val = 2 + (4 + i.val) := by omega
  exact (getElem_congr_idx hidx).trans ((targets_k _ _ _ ⟨4 + i.val, by omega⟩).trans (dif_neg (by simp)))

/-! ### What a record leaves unchanged -/

section
variable (f : FrameRecord) (s : State)

@[simp] theorem takeRecord_fqIndex : (takeRecord hw f s).fqIndex = s.fqIndex := by
  obtain ⟨_, _, _, _, _, h⟩ := takeRecord_effect hw f s; rw [h]
@[simp] theorem takeRecord_decayAppended : (takeRecord hw f s).decayAppended = s.decayAppended := by
  obtain ⟨_, _, _, _, _, h⟩ := takeRecord_effect hw f s; rw [h]
@[simp] theorem takeRecord_isReset : (takeRecord hw f s).isReset = s.isReset := by
  obtain ⟨_, _, _, _, _, h⟩ := takeRecord_effect hw f s; rw [h]
@[simp] theorem takeRecord_statusOut : (takeRecord hw f s).statusOut = s.statusOut := by
  obtain ⟨_, _, _, _, _, h⟩ := takeRecord_effect hw f s; rw [h]
@[simp] theorem takeRecord_hostCmds : (takeRecord hw f s).hostCmds = s.hostCmds := by
  obtain ⟨_, _, _, _, _, h⟩ := takeRecord_effect hw f s; rw [h]

end

theorem takeRecord_speaking {f : FrameRecord} (s : State) (hf : f ≠ .stop) : (takeRecord hw f s).speaking = s.speaking := by
  cases f with
  | stop => exact absurd rfl hf
  | silence => rfl
  | repeatFrame e p => simp [takeRecord, takeRepeat, applyRepeat]
  | unvoiced e k => simp [takeRecord, takeUnvoiced, applyUnvoiced]
  | voiced e p k => simp [takeRecord, takeVoiced, applyVoiced]
  | values e p k => simp [takeRecord, takeValues]

theorem takeRecord_counters {f : FrameRecord} (s : State) (hf : f ≠ .silence) :
    (takeRecord hw f s).interpPeriod = s.interpPeriod ∧ (takeRecord hw f s).sampleInPeriod = s.sampleInPeriod := by
  cases f with
  | stop => exact ⟨rfl, rfl⟩
  | silence => exact absurd rfl hf
  | repeatFrame e p => simp [takeRecord, takeRepeat, applyRepeat]
  | unvoiced e k => simp [takeRecord, takeUnvoiced, applyUnvoiced]
  | voiced e p k => simp [takeRecord, takeVoiced, applyVoiced]
  | values e p k => simp [takeRecord, takeValues]

/-- A well-formed record raises nothing: no clamp acts on it (R263). -/
theorem takeRecord_err_of_wf {f : FrameRecord} (s : State) (hf : f.wf = true) : (takeRecord hw f s).err = s.err := by
  cases f with
  | stop => rfl
  | silence => rfl
  | repeatFrame e p =>
    obtain ⟨he, hp⟩ := encodable_repeatFrame.mp hf
    rw [takeRecord, takeRepeat_of_mem s (by omega) (by omega) hp.1 hp.2]; rfl
  | unvoiced e k =>
    obtain ⟨he, hk⟩ := encodable_unvoiced.mp hf
    rw [takeRecord, takeUnvoiced_of_mem s (by omega) (by omega) hk]; rfl
  | voiced e p k =>
    obtain ⟨he, hp, hk⟩ := encodable_voiced.mp hf
    rw [takeRecord, takeVoiced_of_mem s (by omega) (by omega) (by omega) hp.2 hk]; rfl
  | values e p k =>
    simp only [FrameRecord.wf, Bool.and_eq_true, decide_eq_true_eq] at hf
    obtain ⟨⟨⟨⟨he0, he1⟩, hp0⟩, hp1⟩, hk⟩ := hf
    exact takeValues_err_of_mem s he0 he1 hp0 hp1 hk

end Sys2Proof.Machine
end

section
/-! The decoder's answer where the stream goes on, and what `DecodeAll` can do in one round (40_frame_decoder.md R127, R128). -/

namespace Sys2Proof

variable {m : Memory} {len len' pos next : Nat} {f : FrameRecord}

/-- The answer `ended` is exactly that no bit is left. -/
theorem decodeFrame_eq_ended : decodeFrame m len pos = .ended ↔ 8 * len ≤ pos := by
  constructor
  · intro h
    obtain ⟨-, hle⟩ | ⟨h', -⟩ | ⟨g, n, h', -⟩ := decodeFrame_cases m len pos
    · exact hle
    · rw [h] at h'; cases h'
    · rw [h] at h'; cases h'
  · intro h
    rw [decodeFrame, if_pos (by omega)]

/-- A frame lies in the stream and takes at least 4 bits. -/
theorem decodeFrame_bounds (h : decodeFrame m len pos = .frame f next) : pos + 4 ≤ next ∧ next ≤ 8 * len := by
  obtain ⟨hf, -, hnext, hle⟩ := holdsBits_of_decodeFrame h
  have hlen := four_le_length_frameBits hf
  omega

/-- A frame is decoded the same in every stream that holds its bits: the decoder reads no bit past the frame. -/
theorem decodeFrame_of_le (h : decodeFrame m len pos = .frame f next) (hle : next ≤ 8 * len') :
    decodeFrame m len' pos = .frame f next := by
  obtain ⟨hf, hb, rfl, -⟩ := holdsBits_of_decodeFrame h
  exact decodeFrame_of_holdsBits hf hle hb

/-- Where 50 bits are left, the length of the longest frame, some frame is decoded (R91). -/
theorem decodeFrame_of_room (h : pos + 50 ≤ 8 * len) : ∃ f next, decodeFrame m len pos = .frame f next := by
  by_cases h15 : energyAt m pos = 15
  · exact ⟨_, _, decodeFrame_stop (by omega) h15⟩
  by_cases h0 : energyAt m pos = 0
  · exact ⟨_, _, decodeFrame_silence (by omega) h0⟩
  by_cases hr : repeatAt m pos = 1
  · exact ⟨_, _, decodeFrame_repeatFrame h15 h0 (by omega) hr⟩
  by_cases hp : pitchAt m pos = 0
  · exact ⟨_, _, decodeFrame_unvoiced h15 h0 (by omega) hr hp⟩
  · exact ⟨_, _, decodeFrame_voiced h15 h0 h hr hp⟩

/-! ### The rounds of `DecodeAll` -/

/-- With no bit left `DecodeAll` gives no frame, whatever rounds it has. -/
theorem decodeFrom_of_length_le (fuel : Nat) (h : 8 * len ≤ pos) : decodeFrom m len fuel pos = ([], false) := by
  cases fuel with
  | zero => rfl
  | succ fuel => rw [decodeFrom, decodeFrame_eq_ended.mpr h]

/-- What a round of `DecodeAll` does: it ends with no bit left, it ends with a STOP (read, or put after a frame cut short), or it
gives a frame of at least 4 bits and goes on after it. -/
theorem decodeFrom_succ_cases (m : Memory) (len pos : Nat) :
    (8 * len ≤ pos ∧ ∀ fuel, decodeFrom m len (fuel + 1) pos = ([], false)) ∨
    (pos < 8 * len ∧ ∃ malformed, ∀ fuel, decodeFrom m len (fuel + 1) pos = ([.stop], malformed)) ∨
    ∃ f next, f ≠ .stop ∧ pos + 4 ≤ next ∧ next ≤ 8 * len ∧ ∀ fuel, decodeFrom m len (fuel + 1) pos =
      (f :: (decodeFrom m len fuel next).1, (decodeFrom m len fuel next).2) := by
  have hended := decodeFrame_eq_ended (m := m) (len := len) (pos := pos)
  cases h : decodeFrame m len pos with
  | ended => exact .inl ⟨hended.mp h, fun fuel => decodeFrom_of_length_le _ (hended.mp h)⟩
  | malformed =>
    rw [h] at hended
    exact .inr (.inl ⟨by simpa using hended, true, fun fuel => by rw [decodeFrom, h]⟩)
  | frame f next =>
    obtain ⟨hmin, hmax⟩ := decodeFrame_bounds h
    by_cases hf : f = .stop
    · subst hf
      exact .inr (.inl ⟨by omega, false, fun fuel => decodeFrom_stop fuel h⟩)
    · exact .inr (.inr ⟨f, next, hf, hmin, hmax, fun fuel => decodeFrom_frame fuel h hf⟩)

/-- One round for every 4 bits left is enough: more change nothing. -/
theorem decodeFrom_add {fuel : Nat} (extra : Nat) (h : 8 * len ≤ pos + 4 * fuel) :
    decodeFrom m len (fuel + extra) pos = decodeFrom m len fuel pos := by
  induction fuel generalizing pos with
  | zero =>
    have hend : 8 * len ≤ pos := h
    rw [decodeFrom_of_length_le _ hend, decodeFrom_of_length_le _ hend]
  | succ fuel ih =>
    rw [Nat.add_right_comm]
    obtain ⟨-, heq⟩ | ⟨-, malformed, heq⟩ | ⟨f, next, -, hmin, -, heq⟩ := decodeFrom_succ_cases m len pos
    · rw [heq, heq]
    · rw [heq, heq]
    · rw [heq, heq, ih (by omega)]

/-- STOP stands only at the end of the frames. -/
theorem stop_notMem_dropLast_decodeFrom (fuel : Nat) : FrameRecord.stop ∉ (decodeFrom m len fuel pos).1.dropLast := by
  induction fuel generalizing pos with
  | zero => simp [decodeFrom]
  | succ fuel ih =>
    obtain ⟨-, heq⟩ | ⟨-, malformed, heq⟩ | ⟨f, next, hf, -, -, heq⟩ := decodeFrom_succ_cases m len pos
    · simp [heq]
    · simp [heq]
    · rw [heq]
      by_cases hnil : (decodeFrom m len fuel next).1 = []
      · simp [hnil]
      · rw [List.dropLast_cons_of_ne_nil hnil, List.mem_cons, not_or]
        exact ⟨Ne.symm hf, ih⟩

/-- The frames of a malformed stream end with a STOP. -/
theorem getLast?_decodeFrom_of_malformed {fuel : Nat} (h : (decodeFrom m len fuel pos).2 = true) :
    (decodeFrom m len fuel pos).1.getLast? = some .stop := by
  induction fuel generalizing pos with
  | zero => simp [decodeFrom] at h
  | succ fuel ih =>
    obtain ⟨-, heq⟩ | ⟨-, malformed, heq⟩ | ⟨f, next, -, -, -, heq⟩ := decodeFrom_succ_cases m len pos
    · simp [heq] at h
    · simp [heq]
    · rw [heq] at h ⊢
      rw [List.getLast?_cons, ih h]
      rfl

/-- Every frame takes 4 of the bits left, but the STOP put after a frame cut short, which takes at least one. -/
theorem four_mul_length_decodeFrom_le (fuel : Nat) : 4 * (decodeFrom m len fuel pos).1.length ≤ 8 * len - pos + 3 := by
  induction fuel generalizing pos with
  | zero => simp [decodeFrom]
  | succ fuel ih =>
    obtain ⟨-, heq⟩ | ⟨hlt, malformed, heq⟩ | ⟨f, next, -, hmin, hmax, heq⟩ := decodeFrom_succ_cases m len pos
    · simp [heq]
    · rw [heq, List.length_singleton]; omega
    · have hrest := ih (pos := next)
      rw [heq, List.length_cons]
      omega

end Sys2Proof
end

section
/-! The obligations about the frames and the decoder. -/

namespace Sys2Proof.Proofs

open Sys2Proof Sys2Proof.Machine

/-- Settles O6: indices in range are applied as they are, and `set` at 0 and 1 keeps the K targets. -/
theorem repeatSetsEnergyAndPitch : Obligations.RepeatSetsEnergyAndPitch := by
  intro e p s he0 he1 hp0 hp1
  refine ⟨applyRepeat hw e p s, congrArg _ (takeRepeat_of_mem s he0 he1 hp0 hp1), ?_, ?_, fun i => ?_, rfl⟩
  · simpa [applyRepeat] using romEnergy_toInt e he0 (by omega)
  · simpa [applyRepeat] using romPitch_toInt p hp0 (by omega)
  · rw [applyRepeat, State.setTgt_tgt, Vector.getElem_set_ne _ _ (by omega), Vector.getElem_set_ne _ _ (by omega)]

/-- Settles O7: K1..K4 come from the tables, and a K past the record's four is 0. -/
theorem unvoicedSetsTargets : Obligations.UnvoicedSetsTargets := by
  intro e k s he0 he1 hk
  refine ⟨applyUnvoiced hw e k s, congrArg _ (takeUnvoiced_of_mem s he0 he1 hk), romEnergy_toInt e he0 (by omega),
    romPitch_zero, fun i => ?_, fun i => ?_, rfl⟩
  · rw [applyUnvoiced_low, romK_toInt_of_ok (by decide) hk]
  · rw [applyUnvoiced_high, BitVec.toInt_zero]

/-- Settles O8: each target is one table entry. -/
theorem voicedSetsTargets : Obligations.VoicedSetsTargets := by
  intro e p k s he0 he1 hp0 hp1 hk
  refine ⟨applyVoiced hw e p k s, congrArg _ (takeVoiced_of_mem s he0 he1 hp0 hp1 hk), romEnergy_toInt e he0 (by omega),
    romPitch_toInt p hp0 (by omega), fun i => ?_, rfl⟩
  rw [applyVoiced, State.setTgt_tgt, targets_k, romK_toInt_of_ok (by decide) hk]

/-- Settles O11: field by field; STOP, SILENCE and a clamp are what can write `speaking`, the counters and `err`. -/
theorem frameInstructionsFrame : Obligations.FrameInstructionsFrame := by
  intro f s
  refine ⟨takeRecord hw f s, exec_toInstr f s, ?_⟩
  exact ⟨takeRecord_cur f s, takeRecord_pitchCursor f s, takeRecord_noiseRegister f s, takeRecord_d f s, takeRecord_mode f s,
    takeRecord_bitpos f s, takeRecord_bsLen f s, fun a => by rw [takeRecord_bs], takeRecord_fq f s, takeRecord_fqIndex f s,
    takeRecord_decayAppended f s, takeRecord_isReset f s, takeRecord_pcm f s, takeRecord_statusOut f s,
    takeRecord_hostCmds f s, takeRecord_speaking s, fun hf => by rw [hf]; rfl, takeRecord_counters s, takeRecord_err f s,
    takeRecord_err_of_wf s⟩

/-- Settles O16: a frame is decoded the same wherever it fits, and 7 bytes past the stream every frame fits. -/
theorem endAndMalformedTold : Obligations.EndAndMalformedTold := by
  intro m len pos
  refine ⟨decodeFrame_eq_ended, ⟨fun h => ?_, ?_⟩, fun f next => ⟨fun h => ?_, ?_⟩⟩
  · have hlt : pos < 8 * len := by
      by_contra hge
      rw [decodeFrame_eq_ended.mpr (by omega)] at h; cases h
    obtain ⟨f, next, hlong⟩ := decodeFrame_of_room (m := m) (len := len + 7) (pos := pos) (by omega)
    refine ⟨hlt, f, next, hlong, ?_⟩
    by_contra hfit
    rw [decodeFrame_of_le hlong (by omega)] at h; cases h
  · rintro ⟨hlt, f, next, hlong, hcut⟩
    cases h : decodeFrame m len pos with
    | ended => have hle := decodeFrame_eq_ended.mp h; omega
    | malformed => rfl
    | frame g n =>
      obtain ⟨-, hfit⟩ := decodeFrame_bounds h
      rw [decodeFrame_of_le h (by omega)] at hlong; cases hlong
      omega
  · obtain ⟨hmin, hfit⟩ := decodeFrame_bounds h
    exact ⟨by omega, decodeFrame_of_le h (by omega), hfit⟩
  · rintro ⟨-, hlong, hfit⟩
    exact decodeFrame_of_le hlong hfit

/-- Settles O19: four clauses, each by induction on the rounds. -/
theorem decodeAllEnds : Obligations.DecodeAllEnds := by
  intro bytes
  refine ⟨fun extra => decodeFrom_add extra (by omega), stop_notMem_dropLast_decodeFrom _,
    getLast?_decodeFrom_of_malformed, ?_⟩
  have hcount := four_mul_length_decodeFrom_le (m := Memory.ofBytes bytes) (len := bytes.length) (pos := 0)
    (2 * bytes.length + 1)
  rw [decodeAll]
  omega

/-- Settles O4, by the rule for STOP. -/
theorem stopEndsSpeakingOnly : Obligations.StopEndsSpeakingOnly := fun s => exec_toInstr .stop s

/-- Settles O5, by the rule for SILENCE. -/
theorem silenceZeroesTargetsAndCounters : Obligations.SilenceZeroesTargetsAndCounters := fun s =>
  ⟨applySilence s, exec_toInstr .silence s, fun _ => Vector.getElem_replicate _, rfl⟩

end Sys2Proof.Proofs
end

section
/-! The interpolator: where an effective value lies between its operands and how it depends on the shift (R151, R155), and
the shifts of the sub-periods (R153). -/

namespace Sys2Proof.Machine

/-- Shift 0 snaps to the target (R151). -/
@[simp] theorem interp_zero (c t : Int) : interp c t 0 = t := rfl

/-- The move of R151 also covers shift 0, where the difference is divided by 1. -/
theorem interp_eq_add_ediv (c t : Int) (n : Nat) : interp c t n = c + (t - c) / 2 ^ n := by
  cases n with
  | zero => simp
  | succ n => simp [interp, asr]

/-- Towards a target not above the current value, a smaller shift gives a value at least as low. -/
theorem interp_mono_shift {c t : Int} {m n : Nat} (h : t ≤ c) (hmn : m ≤ n) : interp c t m ≤ interp c t n := by
  have hpow : (2 : Int) ^ m ≤ 2 ^ n := pow_le_pow_right₀ (by decide) hmn
  have hquot : (t - c) / 2 ^ m ≤ 0 := Int.ediv_nonpos_of_nonpos_of_neg (by omega) (by positivity)
  have hdiv : (t - c) / 2 ^ m ≤ (t - c) / 2 ^ n := by
    rw [Int.le_ediv_iff_mul_le (by positivity)]
    calc (t - c) / 2 ^ m * 2 ^ n
      _ ≤ (t - c) / 2 ^ m * 2 ^ m := mul_le_mul_of_nonpos_left hpow hquot
      _ ≤ t - c := Int.ediv_mul_le _ (by positivity)
  rw [interp_eq_add_ediv, interp_eq_add_ediv]
  omega

/-- An effective value is at least the smaller of current and target (R155). -/
theorem min_le_interp (c t : Int) (n : Nat) : min c t ≤ interp c t n := by
  obtain hle | hle := le_total t c
  · calc min c t
      _ ≤ interp c t 0 := min_le_right c t
      _ ≤ interp c t n := interp_mono_shift hle (Nat.zero_le n)
  · have hquot : 0 ≤ (t - c) / 2 ^ n := Int.ediv_nonneg (by omega) (by positivity)
    rw [interp_eq_add_ediv]
    omega

/-- An effective value lies in every range that holds both operands (R155). -/
theorem interp_mem {c t lo hi : Int} (n : Nat) (hc : lo ≤ c ∧ c ≤ hi) (ht : lo ≤ t ∧ t ≤ hi) :
    lo ≤ interp c t n ∧ interp c t n ≤ hi := by
  have hmin := min_le_interp c t n
  have hmax := interp_le_max c t n
  omega

/-- The shift never grows from a sub-period to the next (R153). -/
theorem shiftOf_hw_succ_le : ∀ p < 7, shiftOf hw (p + 1) ≤ shiftOf hw p := by decide

/-- Sub-period 7 snaps (R153, D1). -/
@[simp] theorem shiftOf_hw_seven : shiftOf hw 7 = 0 := rfl

/-- Effective value `j` lies in every range that holds `cur[j]` and `tgt[j]`. -/
theorem interpolate_mem {s : State} {lo hi : Int} {j : Nat} (h : j < 12)
    (hc : lo ≤ s.cur[j].toInt ∧ s.cur[j].toInt ≤ hi) (ht : lo ≤ s.tgt[j].toInt ∧ s.tgt[j].toInt ≤ hi) :
    lo ≤ (interpolate hw s)[j] ∧ (interpolate hw s)[j] ≤ hi := by
  rw [interpolate_getElem]
  exact interp_mem _ hc ht

end Sys2Proof.Machine
end

section
/-! The obligations about the interpolator. -/

namespace Sys2Proof.Proofs

open Sys2Proof Sys2Proof.Machine

/-- Settles O24: the floor of the difference by its two bounds, the widths by the place between the operands. -/
theorem interpMovesByFloor : Obligations.InterpMovesByFloor := by
  intro c t n
  refine ⟨fun h => by rw [h, interp_zero], fun _ => ?_, ⟨min_le_interp c t n, interp_le_max c t n⟩, fun hc ht => ?_⟩
  · have hpow : (0 : Int) < 2 ^ n := by positivity
    rw [interp_eq_add_ediv, add_sub_cancel_left]
    exact ⟨Int.ediv_mul_le _ hpow.ne', Int.lt_ediv_add_one_mul_self _ hpow⟩
  · exact ⟨by omega, by omega, interp_mem n hc ht⟩

/-- Settles O25: each range holds the current value and the target, and the shift of sub-period 7 is 0. -/
theorem effectiveValuesLegal : Obligations.EffectiveValuesLegal := by
  rintro s ⟨hce, hcp, hck⟩ ⟨hte, htp, htk⟩
  refine ⟨interpolate_mem _ hce hte, interpolate_mem _ hcp htp, fun i => interpolate_mem _ (hck i) (htk i),
    fun h7 j => ?_⟩
  calc (interpolate hw s)[j]
    _ = interp s.cur[j].toInt s.tgt[j].toInt (shiftOf hw s.interpPeriod.toNat) := interpolate_getElem hw s j.val j.isLt
    _ = s.tgt[j].toInt := by rw [h7, shiftOf_hw_seven, interp_zero]

/-- Settles O26: the shifts fall to 0, and towards 0 from above a smaller shift gives a value at least as low. -/
theorem silenceEnergyNeverRises : Obligations.SilenceEnergyNeverRises := fun c hc =>
  ⟨fun p hp => interp_mono_shift hc (shiftOf_hw_succ_le p hp), by rw [shiftOf_hw_seven, interp_zero]⟩

/-- Settles O23: `INTERP_PHASE` is 1, so the table is read from its second entry on and last at its first. -/
theorem shiftSchedule : Obligations.ShiftSchedule := rfl

end Sys2Proof.Proofs
end

section
/-! What a speaking STEP excites with and leaves in the cursor and the noise register, as numbers (42_excitation.md R170 to
R176). -/

namespace Sys2Proof.Machine

open Sys2Proof

/-- A speaking STEP writes the cursor and the noise register by the pipeline only, at a frame end too (R225, R227). -/
theorem exec_step_generators {s t : State} (hs : s.speaking = true) (h : exec .step s = .next t) :
    t.pitchCursor = advanceCursor (interpolate hw s)[1] s.pitchCursor ∧
      t.noiseRegister = exciteNoise hw (interpolate hw s)[1] s := by
  cases completes_of_exec h with
  | frame _ f hf => cases hf
  | idleStep hidle => rw [hs] at hidle; cases hidle
  | insideFrame d' v ip sip _ _ _ _ _ => simp
  | frameEnd d' v _ _ _ => simp

/-- From a legal cursor the next place fits the 8 bits of the cursor (R28, R174). -/
theorem advanceCursor_toNat (p : Int) {c : BitVec 8} (hc : c.toNat ≤ 158) :
    (advanceCursor p c).toNat = if p ≤ c.toNat + 1 then 0 else c.toNat + 1 := by
  unfold advanceCursor
  split
  · rfl
  · rw [BitVec.toNat_ofNat]; omega

theorem exciteNoise_voiced {p : Int} (hp : 0 < p) (s : State) : exciteNoise hw p s = s.noiseRegister := by
  rw [exciteNoise, if_pos hp, hw_lfsrFreeRun]; rfl

theorem exciteNoise_unvoiced {p : Int} (hp : p ≤ 0) (s : State) : exciteNoise hw p s = lfsrNext s.noiseRegister :=
  if_neg (by omega)

theorem exciteSample_voiced {p : Int} (hp : 0 < p) (s : State) :
    exciteSample hw p s = chirpSample hw s.pitchCursor.toNat := if_pos hp

theorem exciteSample_unvoiced {p : Int} (hp : p ≤ 0) (s : State) :
    exciteSample hw p s = noiseSample (lfsrNext s.noiseRegister) := if_neg (by omega)

theorem noiseSample_eq (r : BitVec 17) : noiseSample r = if r.toNat % 2 = 1 then 64 else -64 := by
  simp [noiseSample, noiseAmplitude, BitVec.getLsbD]

/-- The update halves the register and puts the parity of bits 0 and 3 at place 16 (R176). -/
theorem lfsrNext_toNat (r : BitVec 17) :
    (lfsrNext r).toNat = r.toNat / 2 + 65536 * ((r.toNat + r.toNat / 8) % 2) := by
  have hlow : r.toNat / 2 < 2 ^ 16 := by omega
  have hfeed : ((r.toNat ^^^ r.toNat / 8) &&& 1) = (r.toNat + r.toNat / 8) % 2 := by
    rw [Nat.and_one_is_mod, Nat.xor_mod_two_eq]
  calc (lfsrNext r).toNat
    _ = r.toNat / 2 ||| ((r.toNat + r.toNat / 8) % 2) <<< 16 % 2 ^ 17 := by
      simp [lfsrNext, Nat.shiftRight_eq_div_pow, hfeed]
    _ = r.toNat / 2 ||| ((r.toNat + r.toNat / 8) % 2) <<< 16 := by
      rw [Nat.mod_eq_of_lt (by rw [Nat.shiftLeft_eq]; omega)]
    _ = ((r.toNat + r.toNat / 8) % 2) <<< 16 + r.toNat / 2 := by
      rw [Nat.or_comm, Nat.shiftLeft_add_eq_or_of_lt hlow]
    _ = r.toNat / 2 + 65536 * ((r.toNat + r.toNat / 8) % 2) := by
      rw [Nat.shiftLeft_eq]; omega

end Sys2Proof.Machine
end

section
/-! The period of the LFSR (R177). The update is linear over xor, and the orbit of the register 4, one bit at place 2,
begins with the 17 one-bit registers. So every register is a polynomial in the update applied to 4, and any number of
updates is known from where it takes 4; to double the number is to substitute once. After 17 doublings 4 stands where one
update takes it: `2^17` updates are one, and `2^17 - 1`, a prime, is the period of every register that moves. -/

namespace Sys2Proof.Machine

open Sys2Proof

/-! ### The update bit by bit, and its linearity -/

/-- Bits 0..15 of the update are bits 1..16 of the register, and bit 16 is bit 0 xor bit 3. -/
theorem lfsrNext_getLsbD (r : BitVec 17) {i : Nat} (hi : i < 17) :
    (lfsrNext r).getLsbD i = if i = 16 then r.getLsbD 0 ^^ r.getLsbD 3 else r.getLsbD (i + 1) := by
  split
  · next h => subst h; simp [lfsrNext]
  · next h =>
    have hlt : i < 16 := by omega
    simp [lfsrNext, hlt, Nat.add_comm]

/-- With bit 3 at 0 the update is a rotation. -/
theorem lfsrNext_getLsbD_of_clear {r : BitVec 17} (hr : r.getLsbD 3 = false) {i : Nat} (hi : i < 17) :
    (lfsrNext r).getLsbD i = r.getLsbD ((i + 1) % 17) := by
  rw [lfsrNext_getLsbD r hi, hr, Bool.xor_false]
  split
  · next h => rw [h]
  · next h => rw [Nat.mod_eq_of_lt (by omega)]

@[simp] theorem lfsrNext_zero : lfsrNext 0#17 = 0#17 := rfl

@[simp] theorem lfsrNext_xor (a b : BitVec 17) : lfsrNext (a ^^^ b) = lfsrNext a ^^^ lfsrNext b := by
  refine BitVec.eq_of_getLsbD_eq fun i hi => ?_
  rw [BitVec.getLsbD_xor, lfsrNext_getLsbD _ hi, lfsrNext_getLsbD _ hi, lfsrNext_getLsbD _ hi]
  split
  · rw [BitVec.getLsbD_xor, BitVec.getLsbD_xor, Bool.xor_assoc, Bool.xor_assoc, Bool.xor_left_comm (b.getLsbD 0)]
  · exact BitVec.getLsbD_xor

theorem lfsrNext_iterate_zero (n : Nat) : lfsrNext^[n] 0#17 = 0#17 := Function.iterate_fixed lfsrNext_zero n

theorem lfsrNext_iterate_xor (n : Nat) (a b : BitVec 17) :
    lfsrNext^[n] (a ^^^ b) = lfsrNext^[n] a ^^^ lfsrNext^[n] b := by
  induction n generalizing a b with
  | zero => rfl
  | succ n ih => rw [Function.iterate_succ_apply, lfsrNext_xor, ih]; rfl

/-- Two registers with the same update differ by one whose update is 0. -/
theorem lfsrNext_injective : Function.Injective lfsrNext := by
  intro a b h
  have hdiff : lfsrNext (a ^^^ b) = 0#17 := by rw [lfsrNext_xor, h, BitVec.xor_self]
  exact BitVec.xor_eq_zero_iff.mp (by by_contra hne; exact lfsrNext_ne_zero hne hdiff)

/-! ### Polynomials in the update -/

/-- The polynomial in the update with the given coefficients, the constant one first, applied to `v`. -/
def lfsrPoly : List Bool → BitVec 17 → BitVec 17
  | [], _ => 0#17
  | b :: p, v => (if b then v else 0#17) ^^^ lfsrNext (lfsrPoly p v)

/-- Updates commute with a polynomial in the update. -/
theorem lfsrNext_iterate_lfsrPoly (n : Nat) (p : List Bool) (v : BitVec 17) :
    lfsrNext^[n] (lfsrPoly p v) = lfsrPoly p (lfsrNext^[n] v) := by
  induction p with
  | nil => exact lfsrNext_iterate_zero n
  | cons b p ih =>
    have hnext : lfsrNext^[n] (lfsrNext (lfsrPoly p v)) = lfsrNext (lfsrPoly p (lfsrNext^[n] v)) := by
      rw [← ih, ← Function.iterate_succ_apply, Function.iterate_succ_apply']
    rw [lfsrPoly, lfsrPoly, lfsrNext_iterate_xor, hnext]
    cases b
    · simp [lfsrNext_iterate_zero]
    · rfl

/-- The register 4 has one bit, at place 2. -/
theorem four_getLsbD :
    ∀ (b : Bool), ∀ i < 17, (if b then 4#17 else 0#17).getLsbD i = (b && decide (i = 2)) := by decide

/-- The one bit of 4 moves from place 2 to 1, 0, 16 and on down to 3: a polynomial applied to 4 has coefficient `j` at place
`2 - j` modulo 17. -/
theorem lfsrPoly_four_getLsbD {p : List Bool} (hp : p.length ≤ 17) {i : Nat} (hi : i < 17) :
    (lfsrPoly p 4#17).getLsbD i = p.getD ((19 - i) % 17) false := by
  induction p generalizing i with
  | nil => simp [lfsrPoly]
  | cons b p ih =>
    rw [List.length_cons] at hp
    have hlast : (lfsrPoly p 4#17).getLsbD 3 = false := by
      rw [ih (by omega) (by omega)]
      exact List.getD_eq_default _ _ (by omega)
    rw [lfsrPoly, BitVec.getLsbD_xor, four_getLsbD b i hi, lfsrNext_getLsbD_of_clear hlast hi]
    by_cases h2 : i = 2
    · subst h2; rw [hlast]; simp
    · have hplace : (19 - i) % 17 = (19 - (i + 1) % 17) % 17 + 1 := by omega
      rw [ih (by omega) (by omega), hplace]
      simp [h2]

/-- The coefficients of `r` over the updates of 4. -/
def lfsrCoords (r : BitVec 17) : List Bool := (List.range 17).map fun j => r.getLsbD ((19 - j) % 17)

/-- The register 4 is cyclic: every register is a polynomial in the update applied to it. -/
theorem lfsrPoly_lfsrCoords (r : BitVec 17) : lfsrPoly (lfsrCoords r) 4#17 = r := by
  refine BitVec.eq_of_getLsbD_eq fun i hi => ?_
  have hj : (19 - i) % 17 < 17 := Nat.mod_lt _ (by decide)
  have hplace : (19 - (19 - i) % 17) % 17 = i := by omega
  rw [lfsrPoly_four_getLsbD (by simp [lfsrCoords]) hi]
  simp [lfsrCoords, List.getD_eq_getElem?_getD, hj, hplace]

/-- Where some number of updates takes 4 to `r`, twice as many take 4 to this register. -/
def lfsrDouble (r : BitVec 17) : BitVec 17 := lfsrPoly (lfsrCoords r) r

/-- `n` updates of any register, from the register they take 4 to. -/
theorem lfsrNext_iterate_eq (n : Nat) (r : BitVec 17) :
    lfsrNext^[n] r = lfsrPoly (lfsrCoords r) (lfsrNext^[n] 4#17) := by
  rw [← lfsrNext_iterate_lfsrPoly, lfsrPoly_lfsrCoords]

/-- Doubling the number of updates `k` times. -/
theorem lfsrNext_iterate_two_pow (k : Nat) : lfsrNext^[2 ^ k] 4#17 = lfsrDouble^[k] (lfsrNext 4#17) := by
  induction k with
  | zero => rfl
  | succ k ih =>
    calc lfsrNext^[2 ^ (k + 1)] 4#17
      _ = lfsrNext^[2 ^ k] (lfsrNext^[2 ^ k] 4#17) := by
        rw [pow_succ, Nat.mul_two, Function.iterate_add_apply]
      _ = lfsrDouble (lfsrNext^[2 ^ k] 4#17) := lfsrNext_iterate_eq _ _
      _ = lfsrDouble^[k + 1] (lfsrNext 4#17) := by rw [ih, Function.iterate_succ_apply']

/-- After 17 doublings 4 is where one update takes it; the registers after 6 and 12 doublings cut the evaluation. -/
theorem lfsrDouble_iterate_seventeen : lfsrDouble^[17] (lfsrNext 4#17) = lfsrNext 4#17 := by
  have h6 : lfsrDouble^[6] (lfsrNext 4#17) = 2121#17 := by decide
  have h12 : lfsrDouble^[6] 2121#17 = 26192#17 := by decide
  have h17 : lfsrDouble^[5] 26192#17 = lfsrNext 4#17 := by decide
  calc lfsrDouble^[5 + 6 + 6] (lfsrNext 4#17)
    _ = lfsrNext 4#17 := by rw [Function.iterate_add_apply, Function.iterate_add_apply, h6, h12, h17]

/-- `2^17` updates are one update. -/
theorem lfsrNext_iterate_two_pow_seventeen (r : BitVec 17) : lfsrNext^[2 ^ 17] r = lfsrNext r := by
  rw [lfsrNext_iterate_eq, lfsrNext_iterate_two_pow, lfsrDouble_iterate_seventeen]
  exact (lfsrNext_iterate_eq 1 r).symm

/-- So `2^17 - 1` updates change nothing. -/
theorem isPeriodicPt_lfsrNext (r : BitVec 17) : Function.IsPeriodicPt lfsrNext (2 ^ 17 - 1) r :=
  lfsrNext_injective <|
    (Function.iterate_succ_apply' lfsrNext (2 ^ 17 - 1) r).symm.trans (lfsrNext_iterate_two_pow_seventeen r)

/-- `2^17 - 1` is a prime, so a register that one update moves has no smaller period. -/
theorem minimalPeriod_lfsrNext {r : BitVec 17} (hr : lfsrNext r ≠ r) :
    Function.minimalPeriod lfsrNext r = 2 ^ 17 - 1 :=
  have : Fact (Nat.Prime (2 ^ 17 - 1)) := ⟨by norm_num⟩
  Function.minimalPeriod_eq_prime (isPeriodicPt_lfsrNext r) hr

end Sys2Proof.Machine
end

section
/-! The obligations about the excitation generator. -/

namespace Sys2Proof.Proofs

open Sys2Proof Sys2Proof.Machine

/-- Settles O29: the period divides the prime `2^17 - 1`, and one update moves the seed. -/
theorem lfsrPeriodIsMaximal : Obligations.LfsrPeriodIsMaximal := by
  have hmin : Function.minimalPeriod lfsrNext lfsrSeed = 2 ^ 17 - 1 := minimalPeriod_lfsrNext (by decide)
  refine ⟨isPeriodicPt_lfsrNext lfsrSeed, fun n hpos hlt => ?_⟩
  exact Function.not_isPeriodicPt_of_pos_of_lt_minimalPeriod (by omega) (by rw [hmin]; exact hlt)

/-- Settles O27: the STEP leaves the generators' updates, and its cursor is legal, so no place wraps in 8 bits. -/
theorem stepAdvancesExcitation : Obligations.StepAdvancesExcitation := by
  intro s t hinv hs h
  obtain ⟨hcursor, hnoise⟩ := exec_step_generators hs h
  rw [hcursor, hnoise]
  refine ⟨fun hp => ?_, fun hp => ?_, congrArg _ (advanceCursor_toNat _ hinv.cursorLegal)⟩
  · rw [exciteNoise_voiced hp, exciteSample_voiced hp]
    exact ⟨rfl, rfl⟩
  · rw [exciteNoise_unvoiced hp, exciteSample_unvoiced hp, noiseSample_eq]
    exact ⟨lfsrNext_toNat s.noiseRegister, rfl⟩

/-- Settles O28: bits 1..16 of a register are kept, and bit 0 goes into bit 16 with bit 3. -/
theorem lfsrNeverReachesZero : Obligations.LfsrNeverReachesZero := ⟨lfsrNext_zero, fun _ => lfsrNext_ne_zero⟩

end Sys2Proof.Proofs
end

-- Proofs of the lattice family: the stage product, the lattice step against the stage equations, and the sample of a STEP.
section
/-! The lattice step in closed form (43_lattice.md R192 to R198): the size of the stage product, the step where every value
fits and where one does not, and the case of coefficients 0. -/

namespace Sys2Proof.Machine

open Sys2Proof

/-- With `|k| ≤ 512` the product is at most `512 |x|` in size, and rounding its quotient down does not pass the integer
`-|x|` (R194). -/
theorem natAbs_kMul_le {k : Int} (x : Int) (h0 : -512 ≤ k) (h1 : k ≤ 512) : (hw.kMul k x).natAbs ≤ x.natAbs := by
  have hprod : (k * x).natAbs ≤ 512 * x.natAbs := by
    rw [Int.natAbs_mul]
    exact Nat.mul_le_mul_right _ (by omega)
  rw [hw_kMul]
  omega

section

variable {k : Vector Int 10} {d : Vector Delay 11} {u0 : Int}

/-- Where every value fits, the stages leave the delay values of the stage equations in `d[0..9]`, and the shift by one
place follows (R193). -/
theorem lattice_of_fits (h : LatticeFits k d u0) :
    ∃ d1 : Vector Delay 11, lattice hw k d u0 = .ok (shiftDelay d1 (stageOut k d u0 10), stageOut k d u0 10) ∧
      (∀ (i : Nat) (hi : i < 10), d1[i].toInt = stageDelay k d u0 i hi) ∧ d1[10] = d[10] := by
  obtain ⟨d1, hstages, hdelay, hkept⟩ :=
    (latticeStages_spec k d u0 10 le_rfl d fun _ _ _ => rfl).1 fun i hi _ => h i hi
  refine ⟨d1, ?_, fun i hi => hdelay i hi hi, hkept 10 (by decide) le_rfl⟩
  rw [lattice, show u0 = stageOut k d u0 (10 - 10) from rfl, hstages]
  rfl

/-- Where some value does not fit, the highest stage with such a value is answered (R194). -/
theorem lattice_of_not_fits (h : ¬ LatticeFits k d u0) :
    ∃ (i : Nat) (hi : i < 10), lattice hw k d u0 = .error i ∧ ¬ StageFits k d u0 i hi ∧
      ∀ (j : Nat) (hj : j < 10), i < j → StageFits k d u0 j hj := by
  obtain ⟨i, hi, hstages, hbad, habove⟩ :=
    (latticeStages_spec k d u0 10 le_rfl d fun _ _ _ => rfl).2 fun hall => h fun i hi => hall i hi hi
  refine ⟨i, hi, ?_, hbad, fun j hj hij => habove j hj hij hj⟩
  rw [lattice, show u0 = stageOut k d u0 (10 - 10) from rfl, hstages]

end

/-! ### The shift of the delay line -/

@[simp] theorem shiftDelay_zero (d : Vector Delay 11) (u : Int) : (shiftDelay d u)[0] = BitVec.ofInt latW u := rfl

@[simp] theorem shiftDelay_last (d : Vector Delay 11) (u : Int) : (shiftDelay d u)[10] = d[10] := rfl

theorem shiftDelay_succ (d : Vector Delay 11) (u : Int) (i : Nat) (h : i < 9) : (shiftDelay d u)[i + 1] = d[i] :=
  match i with
  | 0 | 1 | 2 | 3 | 4 | 5 | 6 | 7 | 8 => rfl

/-! ### Coefficients 0 -/

section

variable (d : Vector Delay 11) (u0 : Int)

/-- Coefficients 0 pass the driving value on through every stage. -/
theorem stageOut_replicate_zero (n : Nat) : stageOut (Vector.replicate 10 0) d u0 n = u0 := by
  induction n with
  | zero => rfl
  | succ n ih => simp [stageOut, ih]

/-- Coefficients 0 change no delay element before the shift. -/
theorem stageDelay_replicate_zero (i : Nat) (h : i < 10) :
    stageDelay (Vector.replicate 10 0) d u0 i h = d[i].toInt := by
  simp [stageDelay]

end

/-- A delay element fits its own width. -/
theorem fitsDelay_toInt (x : Delay) : FitsDelay x.toInt := by
  have hlow := x.le_toInt
  have hhigh : x.toInt < 2 ^ 39 := x.toInt_lt
  exact ⟨hlow, by omega⟩

theorem latticeFits_replicate_zero (d : Vector Delay 11) {u0 : Int} (h : FitsDelay u0) :
    LatticeFits (Vector.replicate 10 0) d u0 := fun i hi =>
  ⟨by rwa [stageOut_replicate_zero], by rw [stageDelay_replicate_zero]; exact fitsDelay_toInt _⟩

/-- With coefficients 0 the lattice step is the shift alone (R198). -/
theorem lattice_replicate_zero (d : Vector Delay 11) {u0 : Int} (h : FitsDelay u0) :
    lattice hw (Vector.replicate 10 0) d u0 = .ok (shiftDelay d u0, u0) := by
  obtain ⟨d1, hlattice, hdelay, hlast⟩ := lattice_of_fits (latticeFits_replicate_zero d h)
  have hd1 : d1 = d := by
    refine Vector.ext fun i hi => ?_
    obtain hlt | rfl : i < 10 ∨ i = 10 := by omega
    · exact BitVec.eq_of_toInt_eq ((hdelay i hlt).trans (stageDelay_replicate_zero d u0 i hlt))
    · exact hlast
  rw [hlattice, hd1, stageOut_replicate_zero]

end Sys2Proof.Machine
end

section
/-! The answers of a speaking STEP in terms of the stage equations, and its sample as a number (R194 to R196, R224, R264). -/

namespace Sys2Proof.Machine

open Sys2Proof

@[simp] theorem advanceCounters_pcm (s : State) : (advanceCounters hw s).pcm = s.pcm := by
  obtain ⟨-, -, h⟩ | ⟨-, -, h⟩ | ⟨-, h⟩ := advanceCounters_cases hw s <;> simp [h]

@[simp] theorem advanceCounters_d (s : State) : (advanceCounters hw s).d = s.d := by
  obtain ⟨-, -, h⟩ | ⟨-, -, h⟩ | ⟨-, h⟩ := advanceCounters_cases hw s <;> simp [h]

/-- The state after a speaking STEP whose lattice step left the delay line `d'` and gave the stage-1 output `u` (R224,
R225). -/
def State.spoken (s : State) (d' : Vector Delay 11) (u : Int) : State :=
  (advanceCounters hw (s.sampled d')).pcmWrite (scale (roundClamp hw u))

@[simp] theorem State.spoken_pcm (s : State) (d' : Vector Delay 11) (u : Int) :
    (s.spoken d' u).pcm = s.pcm ++ [BitVec.ofInt 16 (scale (roundClamp hw u))] := by
  simp [State.spoken]

@[simp] theorem State.spoken_d (s : State) (d' : Vector Delay 11) (u : Int) : (s.spoken d' u).d = d' := by
  simp [State.spoken]

section

variable {s : State}

theorem exec_step_of_isReset (hr : s.isReset = true) : exec .step s = stepSample hw s := if_pos hr

/-- A speaking STEP completes with what the lattice step answers. -/
theorem exec_step_of_lattice_ok (hr : s.isReset = true) (hs : s.speaking = true) {d' : Vector Delay 11} {u : Int}
    (h : lattice hw (effK (interpolate hw s)) s.d (driveOf s) = .ok (d', u)) : exec .step s = .next (s.spoken d' u) := by
  have hpipe : pipeline hw s = .ok (scale (roundClamp hw u), s.sampled d') := by rw [pipeline_eq, h]; rfl
  rw [exec_step_of_isReset hr, stepSample, if_pos hs, hpipe]
  rfl

/-- A speaking STEP whose lattice step fails at stage index `i` faults with it and with bit 3 of `err` (R264, R266). -/
theorem exec_step_of_lattice_error (hr : s.isReset = true) (hs : s.speaking = true) {i : Nat}
    (h : lattice hw (effK (interpolate hw s)) s.d (driveOf s) = .error i) :
    exec .step s = .fault (.latticeOverflow i (s.err ||| 8#4)) := by
  have hpipe : pipeline hw s = .error i := by rw [pipeline_eq, h]
  rw [exec_step_of_isReset hr, stepSample, if_pos hs, hpipe]
  rfl

/-- A speaking STEP whose values fit completes (R194). -/
theorem exec_step_of_fits (hr : s.isReset = true) (hs : s.speaking = true) (h : SampleFits s) :
    ∃ d', exec .step s = .next (s.spoken d' (sampleU s)) := by
  obtain ⟨d1, hlattice, -, -⟩ := lattice_of_fits h
  exact ⟨_, exec_step_of_lattice_ok hr hs hlattice⟩

/-- A speaking STEP with a value that does not fit faults (R194, R264). -/
theorem exec_step_of_not_fits (hr : s.isReset = true) (hs : s.speaking = true) (h : ¬ SampleFits s) :
    ∃ i < 10, exec .step s = .fault (.latticeOverflow i (s.err ||| 8#4)) := by
  obtain ⟨i, hi, hlattice, -, -⟩ := lattice_of_not_fits h
  exact ⟨i, hi, exec_step_of_lattice_error hr hs hlattice⟩

/-- What a speaking STEP completes with comes from the lattice step. -/
theorem exists_spoken_of_exec_step {t : State} (hs : s.speaking = true) (h : exec .step s = .next t) :
    ∃ d' u, t = s.spoken d' u := by
  obtain ⟨-, he⟩ | ⟨-, hidle, -⟩ | ⟨-, -, i, -, he⟩ | ⟨-, -, v, t', hp, he⟩ := execStep_cases s
  · cases he.symm.trans h
  · rw [hs] at hidle; cases hidle
  · cases he.symm.trans h
  · obtain ⟨d', u, -, rfl, rfl⟩ := pipeline_eq_ok hp
    cases he.symm.trans h
    exact ⟨d', u, rfl⟩

end

/-- The sample of a STEP as the host's 16 bits hold it: four times a 14-bit number, so no bit is lost (R195, R196). -/
theorem sample_toInt (u : Int) :
    (BitVec.ofInt 16 (scale (roundClamp hw u))).toInt = 4 * max (-8192) (min ((u + 32768) / 65536) 8191) := by
  rw [scale_roundClamp, BitVec.toInt_ofInt, Int.bmod_eq_of_le] <;> omega

/-! ### Parameters 0 -/

/-- With all parameter registers 0 every effective value is 0 (R151, R152). -/
theorem interpolate_of_zero {s : State} (hc : s.cur = Vector.replicate 12 0#paramW)
    (ht : s.tgt = Vector.replicate 12 0#paramW) : interpolate hw s = Vector.replicate 12 0 := by
  refine Vector.ext fun j hj => ?_
  rw [interpolate_getElem hw s j hj, interp_eq_add_ediv, hc, ht]
  simp

/-- Effective energy 0 drives the lattice with 0, whatever the excitation (R191). -/
theorem driveOf_of_zero {s : State} (h : interpolate hw s = Vector.replicate 12 0) : driveOf s = 0 := by
  have henergy : (interpolate hw s)[0] = 0 := by rw [h]; rfl
  rw [driveOf, henergy, Int.mul_zero, Int.zero_mul]

end Sys2Proof.Machine
end

section
/-! The obligations about the lattice and the output path. -/

namespace Sys2Proof.Proofs

open Sys2Proof Sys2Proof.Machine

/-- Settles O30: the floor by its two bounds; each special value is an exact quotient. -/
theorem kMulRoundsDown : Obligations.KMulRoundsDown := by
  intro k x
  have hfloor : 512 * hw.kMul k x ≤ k * x ∧ k * x < 512 * hw.kMul k x + 512 :=
    ⟨Int.mul_ediv_self_le (by decide), Int.lt_mul_ediv_self_add (by decide)⟩
  refine ⟨hfloor.1, hfloor.2, ?_, ?_, ?_, ?_, ?_, natAbs_kMul_le x⟩
  all_goals simp only [hw_kMul, asr]
  all_goals omega

/-- Settles O31: the step with every value fitting, read through the shift, and the step with one that does not. -/
theorem latticeComputesStageEquations : Obligations.LatticeComputesStageEquations := by
  refine fun k d u0 => ⟨fun hfits => ?_, lattice_of_not_fits⟩
  obtain ⟨d1, hlattice, hdelay, hlast⟩ := lattice_of_fits hfits
  refine ⟨_, hlattice, ?_, fun i hi => ?_, hlast⟩
  · exact delay_toInt _ (hfits 0 (by decide)).1
  · rw [shiftDelay_succ d1 _ i hi]
    exact hdelay i (by omega)

/-- Settles O32: coefficients 0 leave every value as it is, and what remains of the step is the shift. -/
theorem zeroCoefficientsShift : Obligations.ZeroCoefficientsShift := fun d _ h => lattice_replicate_zero d h

/-- Settles O33: a fault where some value does not fit, a next state where all do, and no answer is both. -/
theorem stepFaultsOnOverflow : Obligations.StepFaultsOnOverflow := by
  intro s hr hs
  by_cases hfits : SampleFits s
  · obtain ⟨d', hstep⟩ := exec_step_of_fits hr hs hfits
    simp [hstep, hfits]
  · obtain ⟨i, hi, hstep⟩ := exec_step_of_not_fits hr hs hfits
    simp [hstep, hfits, hi]

/-- Settles O37: the sample is four times a 14-bit number. -/
theorem samplesAreMultiplesOfFour : Obligations.SamplesAreMultiplesOfFour := by
  intro s t hs h
  obtain ⟨d', u, rfl⟩ := exists_spoken_of_exec_step hs h
  refine ⟨_, s.spoken_pcm d' u, ?_⟩
  rw [sample_toInt]
  omega

/-- Settles O38: the coefficients and the driving value are 0, so the step shifts 0 into a delay line of 0. -/
theorem quietEngineStaysQuiet : Obligations.QuietEngineStaysQuiet := by
  intro s hr hs hcur htgt hd
  have heff := interpolate_of_zero hcur htgt
  have hk : effK (interpolate hw s) = Vector.replicate 10 0 := by rw [heff]; rfl
  have hlattice : lattice hw (effK (interpolate hw s)) s.d (driveOf s) = .ok (s.d, 0) := by
    rw [hk, driveOf_of_zero heff, lattice_replicate_zero _ (by unfold FitsDelay; decide), hd]
    rfl
  exact ⟨_, exec_step_of_lattice_ok hr hs hlattice, s.spoken_pcm s.d 0, s.spoken_d s.d 0⟩

end Sys2Proof.Proofs
end

-- Proofs of the engine family: pulling and loading, clamped records, a STEP by its place in the frame, and renderings.
section
/-! Pulling and loading in terms of the state's named writes (44_engine.md R222, R223, R229 to R232): what a pull leaves for each
answer of its source, and the answers of the commands where they are accepted. -/

namespace Sys2Proof.Machine

open Sys2Proof

variable {s : State}

/-! ### The pull, by the answer of its source -/

theorem pull_of_ended (hm : s.mode = .bitstream) (h : decodeFrame s.bs s.bsLen s.bitpos = .ended) :
    pull hw s = s.stopSpeaking := by
  rw [pull_bitstream hm, pullBits, h]

theorem pull_of_malformed (hm : s.mode = .bitstream) (h : decodeFrame s.bs s.bsLen s.bitpos = .malformed) :
    pull hw s = (s.raise .malformedBitstream).stopSpeaking := by
  rw [pull_bitstream hm, pullBits, h]

theorem pull_of_frame {f : FrameRecord} {next : Nat} (hm : s.mode = .bitstream)
    (h : decodeFrame s.bs s.bsLen s.bitpos = .frame f next) : pull hw s = takeRecord hw f (s.setBitpos next) := by
  rw [pull_bitstream hm, pullBits, h]

theorem pull_of_record (hm : s.mode = .frames) (h : s.fqIndex < s.fq.length) :
    pull hw s = takeRecord hw s.fq[s.fqIndex] (s.setFqIndex (s.fqIndex + 1)) := by
  rw [pull_frames hm, pullQueue, List.getElem?_eq_getElem h]

theorem pull_of_exhausted (hm : s.mode = .frames) (h : s.fq.length ≤ s.fqIndex) :
    pull hw s = if s.decayAppended then s.stopSpeaking else takeRecord hw .silence s.markDecay := by
  rw [pull_frames hm, pullQueue, List.getElem?_eq_none h]
  rfl

/-- A pull from a bitstream leaves the cursors of the frame queue alone (R230). -/
theorem pull_queueCursors (hm : s.mode = .bitstream) :
    (pull hw s).fqIndex = s.fqIndex ∧ (pull hw s).decayAppended = s.decayAppended := by
  cases h : decodeFrame s.bs s.bsLen s.bitpos with
  | ended => rw [pull_of_ended hm h]; exact ⟨rfl, rfl⟩
  | malformed => rw [pull_of_malformed hm h]; exact ⟨rfl, rfl⟩
  | frame f next => rw [pull_of_frame hm h]; simp

/-- A pull keeps counters that stand at 0, as they do at a frame end: no record writes another value there (R123, R227). -/
theorem Pulled.counters_zero {t : State} (h : Pulled s t) (hip : s.interpPeriod = 0#3) (hsip : s.sampleInPeriod = 0#5) :
    t.interpPeriod = 0#3 ∧ t.sampleInPeriod = 0#5 := by
  cases h with
  | noSource _ => exact ⟨hip, hsip⟩
  | streamEnded _ => exact ⟨hip, hsip⟩
  | streamMalformed _ => exact ⟨hip, hsip⟩
  | streamFrame f n _ _ _ => exact takeRecord_counters_zero f hip hsip
  | queueRecord f _ _ => exact takeRecord_counters_zero f hip hsip
  | queueDecay _ _ => exact ⟨rfl, rfl⟩
  | queueEnded _ => exact ⟨hip, hsip⟩

/-! ### The commands where they are accepted, and the loads where they are not -/

theorem exec_step_of_idle (hr : s.isReset = true) (hs : s.speaking = false) : exec .step s = .next (s.pcmWrite 0) := by
  rw [exec_step_of_isReset hr, stepSample, hs]
  rfl

section
variable (bytes : List Byte) (frames : List FrameRecord)

theorem exec_load_of_isReset (hr : s.isReset = true) : exec (.load bytes) s = loadBits hw bytes s := if_pos hr

theorem exec_loadFrames_of_isReset (hr : s.isReset = true) : exec (.loadFrames frames) s = loadQueue hw frames s := if_pos hr

theorem exec_load_of_idle (hr : s.isReset = true) (hs : s.speaking = false) :
    exec (.load bytes) s = .next (pull hw (s.installBits bytes)) := by
  rw [exec_load_of_isReset bytes hr, loadBits, hs]
  rfl

theorem exec_loadFrames_of_idle (hr : s.isReset = true) (hs : s.speaking = false) :
    exec (.loadFrames frames) s = .next (pull hw (s.installFrames frames)) := by
  rw [exec_loadFrames_of_isReset frames hr, loadQueue, hs]
  rfl

theorem exec_load_of_speaking (hr : s.isReset = true) (hs : s.speaking = true) :
    exec (.load bytes) s = .refused .loadWhileSpeaking := by
  rw [exec_load_of_isReset bytes hr, loadBits, if_pos hs]

theorem exec_loadFrames_of_speaking (hr : s.isReset = true) (hs : s.speaking = true) :
    exec (.loadFrames frames) s = .refused .loadWhileSpeaking := by
  rw [exec_loadFrames_of_isReset frames hr, loadQueue, if_pos hs]

end

theorem exec_status_of_isReset (hr : s.isReset = true) : exec .status s = .next (s.setStatusOut (s.report hw)) := if_pos hr

/-! ### The counters after a load (R123) -/

/-- LOAD's pull keeps the counters, unless the stream begins with a SILENCE. -/
theorem pull_installBits_counters (bytes : List Byte) (s : State) :
    ((pull hw (s.installBits bytes)).interpPeriod = s.interpPeriod ∧
      (pull hw (s.installBits bytes)).sampleInPeriod = s.sampleInPeriod) ∨
    ((pull hw (s.installBits bytes)).interpPeriod = 0#3 ∧ (pull hw (s.installBits bytes)).sampleInPeriod = 0#5 ∧
      ∃ next, decodeFrame (Memory.ofBytes bytes) bytes.length 0 = .frame .silence next) := by
  have hm : (s.installBits bytes).mode = .bitstream := rfl
  cases h : decodeFrame (Memory.ofBytes bytes) bytes.length 0 with
  | ended => rw [pull_of_ended hm h]; exact .inl ⟨rfl, rfl⟩
  | malformed => rw [pull_of_malformed hm h]; exact .inl ⟨rfl, rfl⟩
  | frame f next =>
    rw [pull_of_frame hm h]
    by_cases hf : f = .silence
    · subst hf; exact .inr ⟨rfl, rfl, next, rfl⟩
    · exact .inl (takeRecord_counters _ hf)

/-- LOAD_FRAMES's pull keeps the counters, unless the queue is empty or begins with a SILENCE. -/
theorem pull_installFrames_counters (frames : List FrameRecord) (s : State) :
    ((pull hw (s.installFrames frames)).interpPeriod = s.interpPeriod ∧
      (pull hw (s.installFrames frames)).sampleInPeriod = s.sampleInPeriod) ∨
    ((pull hw (s.installFrames frames)).interpPeriod = 0#3 ∧ (pull hw (s.installFrames frames)).sampleInPeriod = 0#5 ∧
      (frames = [] ∨ ∃ rest, frames = .silence :: rest)) := by
  cases frames with
  | nil => exact .inr ⟨rfl, rfl, .inl rfl⟩
  | cons f rest =>
    by_cases hf : f = .silence
    · subst hf; exact .inr ⟨rfl, rfl, .inr ⟨rest, rfl⟩⟩
    · exact .inl (takeRecord_counters _ hf)

end Sys2Proof.Machine
end

section
/-! Clamped operands (44_engine.md R233, R234): a clamp acts exactly on an operand out of range, and a record of indices on which
one acts is the clamped record with the condition raised. -/

namespace Sys2Proof.Machine

open Sys2Proof

theorem clamp_eq_self_iff {v lo hi : Int} (h : lo ≤ hi) : clamp v lo hi = v ↔ lo ≤ v ∧ v ≤ hi := by
  rw [clamp_eq v lo hi h]; omega

theorem energyIndex_eq (e : Int) : energyIndex e = max 0 (min e 15) := clamp_eq _ _ _ (by decide)

theorem pitchIndex_eq (p : Int) : pitchIndex p = max 0 (min p 63) := clamp_eq _ _ _ (by decide)

theorem energyIndex_eq_self_iff {e : Int} : energyIndex e = e ↔ 0 ≤ e ∧ e ≤ 15 := clamp_eq_self_iff (by decide)

theorem pitchIndex_eq_self_iff {p : Int} : pitchIndex p = p ↔ 0 ≤ p ∧ p ≤ 63 := clamp_eq_self_iff (by decide)

theorem energyValue_eq_self_iff {e : Int} : energyValue e = e ↔ 0 ≤ e ∧ e ≤ 114 := clamp_eq_self_iff (by decide)

theorem pitchValue_eq_self_iff {p : Int} : pitchValue p = p ↔ 0 ≤ p ∧ p ≤ 159 := clamp_eq_self_iff (by decide)

theorem energyValue_eq (e : Int) : energyValue e = max 0 (min e 114) := clamp_eq _ _ _ (by decide)

theorem pitchValue_eq (p : Int) : pitchValue p = max 0 (min p 159) := clamp_eq _ _ _ (by decide)

theorem kValues_getElem_eq (k : Vector Int 10) (i : Fin 10) : (kValues k)[i] = max (-512) (min k[i] 512) :=
  (kValues_getElem k i).trans (clamp_eq _ _ _ (by decide))

theorem kValues_eq_self_iff {k : Vector Int 10} : kValues k = k ↔ ∀ i : Fin 10, -512 ≤ k[i] ∧ k[i] ≤ 512 := by
  refine ⟨fun h i => ?_, fun h => kValues_of_ok (decide_eq_true h)⟩
  rw [← clamp_eq_self_iff (by decide), ← kValues_getElem, h]

theorem zero_lt_kCard : ∀ i < 10, 0 < kCard i := by decide

section
variable {n : Nat} {k : Vector Int n}

theorem kIndices_getElem_eq (hn : n ≤ 10) (k : Vector Int n) (i : Fin n) :
    (kIndices k)[i] = max 0 (min k[i] ((kCard i.val : Int) - 1)) := by
  have hpos := zero_lt_kCard i.val (by omega)
  rw [kIndices_getElem, clamp_eq _ _ _ (by omega)]

theorem kIndicesOk_kIndices (hn : n ≤ 10) (k : Vector Int n) : kIndicesOk (kIndices k) = true := by
  refine kIndicesOk_iff.mpr fun i hi => ?_
  have hpos := zero_lt_kCard i (by omega)
  have hget : (kIndices k)[i] = max 0 (min k[i] ((kCard i : Int) - 1)) := kIndices_getElem_eq hn k ⟨i, hi⟩
  omega

theorem kIndices_eq_self_iff (hn : n ≤ 10) : kIndices k = k ↔ kIndicesOk k = true :=
  ⟨fun h => h ▸ kIndicesOk_kIndices hn k, kIndices_of_ok⟩

/-- A vector that holds each index clamped is the clamped vector. -/
theorem eq_kIndices (hn : n ≤ 10) {k' : Vector Int n}
    (h : ∀ i : Fin n, k'[i] = max 0 (min k[i] ((kCard i.val : Int) - 1))) : k' = kIndices k :=
  Vector.ext fun i hi => (h ⟨i, hi⟩).trans (kIndices_getElem_eq hn k ⟨i, hi⟩).symm

end

section
variable {e p : Int} (s : State)

theorem energyIndex_mem (e : Int) : 0 ≤ energyIndex e ∧ energyIndex e ≤ 15 := clamp_mem e (by decide)

theorem pitchIndex_mem (p : Int) : 0 ≤ pitchIndex p ∧ pitchIndex p ≤ 63 := clamp_mem p (by decide)

/-- A REPEAT record on which a clamp acts is the clamped record with the condition raised (R233). -/
theorem takeRepeat_of_clamped (h : ¬(energyIndex e = e ∧ pitchIndex p = p)) :
    takeRepeat hw e p s = takeRepeat hw (energyIndex e) (pitchIndex p) (s.raise .invalidFrameParameter) := by
  obtain ⟨he0, he1⟩ := energyIndex_mem e
  obtain ⟨hp0, hp1⟩ := pitchIndex_mem p
  rw [takeRepeat_of_mem _ he0 he1 hp0 hp1, takeRepeat, State.raiseIf, if_pos (by simpa [imp_iff_not_or] using h)]

/-- The same of UNVOICED. -/
theorem takeUnvoiced_of_clamped {k : Vector Int 4} (h : ¬(energyIndex e = e ∧ kIndices k = k)) :
    takeUnvoiced hw e k s = takeUnvoiced hw (energyIndex e) (kIndices k) (s.raise .invalidFrameParameter) := by
  obtain ⟨he0, he1⟩ := energyIndex_mem e
  rw [takeUnvoiced_of_mem _ he0 he1 (kIndicesOk_kIndices (by decide) k), takeUnvoiced, State.raiseIf,
    if_pos (by simpa [imp_iff_not_or] using h)]

/-- The same of VOICED. -/
theorem takeVoiced_of_clamped {k : Vector Int 10} (h : ¬(energyIndex e = e ∧ pitchIndex p = p ∧ kIndices k = k)) :
    takeVoiced hw e p k s =
      takeVoiced hw (energyIndex e) (pitchIndex p) (kIndices k) (s.raise .invalidFrameParameter) := by
  obtain ⟨he0, he1⟩ := energyIndex_mem e
  obtain ⟨hp0, hp1⟩ := pitchIndex_mem p
  rw [takeVoiced_of_mem _ he0 he1 hp0 hp1 (kIndicesOk_kIndices (by decide) k), takeVoiced, State.raiseIf,
    if_pos (by simpa [imp_iff_not_or, or_assoc] using h)]

/-- A value frame raises the condition unless every operand is its own clamped value (R234). -/
theorem takeValues_err {k : Vector Int 10} : (takeValues e p k s).err =
    if energyValue e = e ∧ pitchValue p = p ∧ kValues k = k then s.err else s.err ||| 4#4 := by
  split
  · next h => obtain ⟨he, hp, hk⟩ := h; simp [takeValues, he, hp, hk]
  · next h =>
    rw [takeValues, State.raiseIf, if_pos (by simpa [imp_iff_not_or, or_assoc] using h)]
    rfl

/-- Its targets are its operands clamped: 11 bits hold every one of them (R234). -/
theorem takeValues_energy {k : Vector Int 10} : (takeValues e p k s).tgt[0].toInt = max 0 (min e 114) := by
  simp only [takeValues, State.raiseIf_tgt, State.setTgt_tgt, targets_energy, energyValue_eq]
  exact toParam_toInt _ (by omega) (by omega)

theorem takeValues_pitch {k : Vector Int 10} : (takeValues e p k s).tgt[1].toInt = max 0 (min p 159) := by
  simp only [takeValues, State.raiseIf_tgt, State.setTgt_tgt, targets_pitch, pitchValue_eq]
  exact toParam_toInt _ (by omega) (by omega)

theorem takeValues_k {k : Vector Int 10} (i : Fin 10) :
    (takeValues e p k s).tgt[2 + i.val].toInt = max (-512) (min k[i] 512) := by
  simp only [takeValues, State.raiseIf_tgt, State.setTgt_tgt, targets_k, kValues_getElem_eq]
  exact toParam_toInt _ (by omega) (by omega)

end

end Sys2Proof.Machine
end

section
/-! A speaking STEP by its place in the frame (R227), and the loop of a rendering (R240, R241, R262). -/

namespace Sys2Proof.Machine

open Sys2Proof

/-- The place in the frame, 0..199 (R227). -/
def State.place (s : State) : Nat := 25 * s.interpPeriod.toNat + s.sampleInPeriod.toNat

section
variable {s : State} (d' : Vector Delay 11) (u : Int)

theorem atFrameEnd_iff_place (h : s.sampleInPeriod.toNat < 25) : AtFrameEnd s ↔ s.place = 199 := by
  unfold AtFrameEnd State.place; omega

theorem place_setCounters (s : State) {ip sip : Nat} (hip : ip < 8) (hsip : sip < 25) :
    (s.setCounters ip sip).place = 25 * ip + sip ∧ (s.setCounters ip sip).sampleInPeriod.toNat < 25 := by
  simp only [State.place, State.setCounters_interpPeriod, State.setCounters_sampleInPeriod, BitVec.toNat_ofNat]
  omega

@[simp] theorem place_pcmWrite (s : State) (v : Int) : (s.pcmWrite v).place = s.place := rfl

@[simp] theorem place_sampled : (s.sampled d').place = s.place := by simp [State.place]

theorem atFrameEnd_sampled : AtFrameEnd (s.sampled d') ↔ AtFrameEnd s := by simp [AtFrameEnd]

/-- Inside a frame the counters move one place on (R227). -/
theorem advanceCounters_inside (hsip : s.sampleInPeriod.toNat < 25) (hend : ¬ AtFrameEnd s) :
    ∃ ip sip, ip < 8 ∧ sip < 25 ∧ 25 * ip + sip = s.place + 1 ∧ advanceCounters hw s = s.setCounters ip sip := by
  have hip := s.interpPeriod.isLt
  obtain ⟨h24, h7, -⟩ | ⟨h24, h7, h⟩ | ⟨h24, h⟩ := advanceCounters_cases hw s
  · exact absurd ⟨h7, h24⟩ hend
  · exact ⟨_, _, by omega, by omega, by rw [State.place]; omega, h⟩
  · exact ⟨_, _, hip, by omega, by rw [State.place]; omega, h⟩

theorem advanceCounters_frameEnd (hend : AtFrameEnd s) :
    advanceCounters hw s = pull hw (s.setCounters 0 0).promote := by
  obtain ⟨h7, h24⟩ := hend
  obtain ⟨-, -, h⟩ | ⟨-, hne, -⟩ | ⟨hne, -⟩ := advanceCounters_cases hw s
  · exact h
  · exact absurd h7 hne
  · exact absurd h24 hne

/-- A speaking STEP inside a frame moves one place on and writes nothing but the counters, the excitation registers, the
delay line and the output. -/
theorem spoken_inside (hsip : s.sampleInPeriod.toNat < 25) (hend : ¬ AtFrameEnd s) :
    (s.spoken d' u).place = s.place + 1 ∧ (s.spoken d' u).sampleInPeriod.toNat < 25 ∧
      s.spoken d' u = { s with
        interpPeriod := (s.spoken d' u).interpPeriod, sampleInPeriod := (s.spoken d' u).sampleInPeriod
        pitchCursor := (s.spoken d' u).pitchCursor, noiseRegister := (s.spoken d' u).noiseRegister
        d := (s.spoken d' u).d, pcm := (s.spoken d' u).pcm } := by
  obtain ⟨ip, sip, hip, hsip', hplace, hadv⟩ :=
    advanceCounters_inside (s := s.sampled d') (by simpa using hsip) (by rwa [atFrameEnd_sampled])
  obtain ⟨hplace', hlt⟩ := place_setCounters (s.sampled d') hip hsip'
  rw [place_sampled] at hplace
  rw [State.spoken, hadv]
  refine ⟨by rw [place_pcmWrite, hplace', hplace], by simpa using hlt, ?_⟩
  rw [State.sampled]
  generalize advanceCursor _ _ = cursor, exciteNoise _ _ _ = noise
  rfl

/-- The speaking STEP that ends a frame zeroes the counters and promotes the targets, then pulls (R227). -/
theorem spoken_frameEnd (hend : AtFrameEnd s) :
    s.spoken d' u = (pull hw ((s.sampled d').setCounters 0 0).promote).pcmWrite (scale (roundClamp hw u)) := by
  rw [State.spoken, advanceCounters_frameEnd ((atFrameEnd_sampled d').mpr hend)]

/-- The counters stand at 0 and the targets are promoted once the STEP at a frame end is done. -/
theorem spoken_frameEnd_fields (hend : AtFrameEnd s) :
    (s.spoken d' u).interpPeriod = 0#3 ∧ (s.spoken d' u).sampleInPeriod = 0#5 ∧ (s.spoken d' u).cur = s.tgt := by
  rw [spoken_frameEnd d' u hend]
  obtain ⟨hip, hsip⟩ := (pulled_pull ((s.sampled d').setCounters 0 0).promote).counters_zero (by simp) (by simp)
  exact ⟨by simpa using hip, by simpa using hsip, by simp⟩

/-- The delay line and the sample of a STEP whose values fit, by the stage equations (R193 to R196). -/
theorem exec_step_spoken (hr : s.isReset = true) (hs : s.speaking = true) (h : SampleFits s) :
    ∃ d' : Vector Delay 11, exec .step s = .next (s.spoken d' (sampleU s)) ∧ d'[0].toInt = sampleU s ∧
      (∀ (i : Nat) (hi : i < 9),
        d'[i + 1].toInt = stageDelay (effK (interpolate hw s)) s.d (driveOf s) i (by omega)) ∧ d'[10] = s.d[10] := by
  obtain ⟨d', hlattice, hfirst, hrest, hlast⟩ :=
    (Proofs.latticeComputesStageEquations (effK (interpolate hw s)) s.d (driveOf s)).1 h
  exact ⟨d', exec_step_of_lattice_ok hr hs hlattice, hfirst, hrest, hlast⟩

end

/-! ### The loop of RENDER (R240) -/

/-- With `room` samples left the loop appends at most `room`, exactly `room` if it ends still speaking, and it sets bit 1 of
`err` exactly then (R262). -/
theorem renderLoop_effect {room : Nat} {s t : State} (h : renderLoop hw room s = .next t) :
    ∃ out, t.pcm = s.pcm ++ out ∧ out.length ≤ room ∧ (t.speaking = false ∨ out.length = room) ∧
      t.err.getLsbD 1 = (s.err.getLsbD 1 || t.speaking) := by
  induction room generalizing s with
  | zero =>
    cases h
    refine ⟨[], by simp, by simp, .inr rfl, ?_⟩
    cases hs : s.speaking <;> simp [State.raiseIf, hs, Condition.mask, Condition.code]
  | succ room ih =>
    rw [renderLoop_succ] at h
    split at h
    · obtain ⟨s1, hstep, hloop⟩ := andThen_eq_next h
      obtain ⟨v, hv⟩ := (Proofs.oneSamplePerStep .step s s1 hstep).1 rfl
      obtain ⟨-, hbit, -⟩ := Proofs.errorBitsAreSticky .step s s1 hstep nofun
      obtain ⟨out, hpcm, hlen, hend, herr⟩ := ih hloop
      refine ⟨v :: out, by simp [hpcm, hv], by simpa using hlen, by simpa using hend, by rw [herr, hbit]⟩
    · next hs => cases h; exact ⟨[], by simp, by simp, .inl (by simpa using hs), by simp [hs]⟩

/-- A rendering is RESET, a load, which gives no sample and leaves bit 1 of `err` at 0, and the loop. -/
theorem renderWith_effect {i : Instr} (hstep : i ≠ .step) (hreset : i ≠ .reset) {cap : Int} (hcap : 1 ≤ cap) {s t : State}
    (h : renderWith hw (exec i) cap s = .next t) :
    ∃ out, t.pcm = s.pcm ++ out ∧ out.length ≤ cap.toNat ∧ (t.speaking = false ∨ out.length = cap.toNat) ∧
      t.err.getLsbD 1 = t.speaking := by
  rw [renderWith, if_neg (by omega)] at h
  obtain ⟨s1, hs1, h⟩ := andThen_eq_next h
  obtain ⟨s2, hload, hloop⟩ := andThen_eq_next h
  have hclear : s1.err = 0#4 := by cases hs1; rfl
  have hkept : s1.pcm = s.pcm := by cases hs1; rfl
  have hpcm := (Proofs.oneSamplePerStep i _ s2 hload).2 hstep
  obtain ⟨-, hbit, -⟩ := Proofs.errorBitsAreSticky i _ s2 hload hreset
  obtain ⟨out, hout, hlen, hend, herr⟩ := renderLoop_effect hloop
  refine ⟨out, by rw [hout, hpcm, hkept], hlen, hend, ?_⟩
  rw [herr, hbit, hclear]
  simp

/-- R240, R241, R262 for the load `i`. -/
theorem renderWith_bounds {i : Instr} (hstep : i ≠ .step) (hreset : i ≠ .reset) (cap : Int) (s : State) :
    (cap < 1 → renderWith hw (exec i) cap s = .refused .capBelowOne) ∧
    ∀ t, renderWith hw (exec i) cap s = .next t →
      s.pcm <+: t.pcm ∧ ((samplesSince s t).length : Int) ≤ cap ∧
      (t.speaking = false ∨ ((samplesSince s t).length : Int) = cap) ∧ (t.err.getLsbD 1 = true ↔ t.speaking = true) := by
  have hlow (hcap : cap < 1) : renderWith hw (exec i) cap s = .refused .capBelowOne := if_pos hcap
  refine ⟨hlow, fun t h => ?_⟩
  have hcap : 1 ≤ cap := by
    by_contra hlt
    cases (hlow (by omega)).symm.trans h
  obtain ⟨out, hout, hlen, hend, herr⟩ := renderWith_effect hstep hreset hcap h
  have hsince : samplesSince s t = out := by rw [samplesSince, hout, List.drop_left]
  rw [hsince, herr]
  exact ⟨⟨out, hout.symm⟩, by omega, hend.imp_right (by omega), Iff.rfl⟩

end Sys2Proof.Machine
end

section
/-! The obligations about the engine. -/

namespace Sys2Proof.Proofs

open Sys2Proof Sys2Proof.Machine

/-- Settles O59: by induction on the STEPs; inside a frame each moves one place on, and from place 199 only one is left. -/
theorem frameLastsTwoHundredSteps : Obligations.FrameLastsTwoHundredSteps := by
  intro s t n p hs hsip hp h
  induction n generalizing s p with
  | zero =>
    have hip := s.interpPeriod.isLt
    cases h
    exact ⟨fun _ => ⟨hp.symm, hsip, rfl, rfl, rfl, rfl, hs, rfl⟩, fun _ => by omega, fun _ => rfl⟩
  | succ n ih =>
    obtain ⟨s1, hstep, hrest⟩ := andThen_eq_next h
    obtain ⟨d', u, rfl⟩ := exists_spoken_of_exec_step hs hstep
    have hpcm : (s.spoken d' u).pcm.length = s.pcm.length + 1 := by simp
    by_cases hend : AtFrameEnd s
    · have h199 : p = 199 := hp.trans ((atFrameEnd_iff_place hsip).mp hend)
      refine ⟨fun _ => by omega, fun hn => ?_, fun hn => ?_⟩
      all_goals
        obtain rfl : n = 0 := by omega
        cases hrest
      · exact spoken_frameEnd_fields d' u hend
      · exact hpcm
    · obtain ⟨hplace, hsip1, heq⟩ := spoken_inside d' u hsip hend
      have hp1 : p + 1 = (s.spoken d' u).place := by rw [hplace, hp, State.place]
      have hs1 : (s.spoken d' u).speaking = true := by rw [heq]; exact hs
      obtain ⟨hin, hover, hcount⟩ := ih _ (p + 1) hs1 hsip1 hp1 hrest
      rw [hpcm] at hcount
      rw [heq] at hin hover
      refine ⟨fun hn => ?_, fun hn => hover (by omega), fun hn => by rw [hcount (by omega)]; omega⟩
      obtain ⟨hplace', hkept⟩ := hin (by omega)
      exact ⟨by omega, hkept⟩

/-- Settles O60: RENDER and RENDER_FRAMES are one procedure over their load. -/
theorem renderStaysUnderCap : Obligations.RenderStaysUnderCap := by
  rintro run (⟨l, rfl⟩ | ⟨l, rfl⟩) cap s
  · exact renderWith_bounds (i := .load l) nofun nofun cap s
  · exact renderWith_bounds (i := .loadFrames l) nofun nofun cap s

/-- Settles O9: each operand is its clamped value, and all are their own exactly when all are in range. -/
theorem valuesClampsAndRaises : Obligations.ValuesClampsAndRaises := by
  intro e p k s
  refine ⟨takeValues e p k s, rfl, takeValues_energy s, takeValues_pitch s, takeValues_k s, ?_, ?_⟩
  · simp only [takeValues_err, energyValue_eq_self_iff, pitchValue_eq_self_iff, kValues_eq_self_iff]
  · rw [takeValues]
    generalize (_ || _) = b
    cases b <;> rfl

/-- Settles O10, tag by tag: an index out of its table is one on which its clamp acts. -/
theorem outOfRangeIndicesClamped : Obligations.OutOfRangeIndicesClamped := by
  refine ⟨fun e p s h => ?_, fun e k k' s h hk' => ?_, fun e p k k' s h hk' => ?_⟩
  · rw [← energyIndex_eq_self_iff, ← pitchIndex_eq_self_iff] at h
    rw [← energyIndex_eq, ← pitchIndex_eq]
    exact congrArg Host.Outcome.next (takeRepeat_of_clamped s h)
  · rw [← energyIndex_eq_self_iff, ← kIndices_eq_self_iff (by decide)] at h
    rw [← energyIndex_eq, eq_kIndices (by decide) hk']
    exact congrArg Host.Outcome.next (takeUnvoiced_of_clamped s h)
  · rw [← energyIndex_eq_self_iff, ← pitchIndex_eq_self_iff, ← kIndices_eq_self_iff (by decide)] at h
    rw [← energyIndex_eq, ← pitchIndex_eq, eq_kIndices (by decide) hk']
    exact congrArg Host.Outcome.next (takeVoiced_of_clamped s h)

/-- Settles O22: the pull that follows the install writes neither the buffer nor the cursors of the queue. -/
theorem loadInstallsBuffer : Obligations.LoadInstallsBuffer := by
  intro bytes s hr hs
  obtain ⟨hindex, hdecay⟩ := pull_queueCursors (s := s.installBits bytes) rfl
  refine ⟨_, exec_load_of_idle bytes hr hs, by simp, by simp, fun a ha => ?_, ?_, by simp, hindex, hdecay⟩
  · rw [pull_bs, State.installBits_bs, Memory.read_ofBytes, List.getD_eq_getElem _ _ ha]
  · rw [pull_bs, State.installBits_bs, Memory.wf_ofBytes]

/-- Settles O35: the stage equations, and one place further in the frame. -/
theorem speakingStepInsideFrame : Obligations.SpeakingStepInsideFrame := by
  intro s hr hs hsip hfits hend
  obtain ⟨d', hstep, hfirst, hrest, hlast⟩ := exec_step_spoken hr hs hfits
  obtain ⟨hplace, hsip', heq⟩ := spoken_inside d' (sampleU s) hsip hend
  refine ⟨_, hstep, ?_, ?_, ?_, ?_, hsip', hplace, heq⟩
  · rw [State.spoken_pcm, scale_roundClamp]
  all_goals simp only [State.spoken_d]
  · exact hfirst
  · exact hrest
  · exact hlast

/-- Settles O36: the stage equations, then the pull from the promoted state, which writes no sample. -/
theorem frameEndPromotesThenPulls : Obligations.FrameEndPromotesThenPulls := by
  intro s hr hs hfits hend
  obtain ⟨d', hstep, hfirst, hrest, hlast⟩ := exec_step_spoken hr hs hfits
  refine ⟨d', hfirst, hrest, hlast, ?_⟩
  rw [hstep, spoken_frameEnd d' _ hend, scale_roundClamp, State.pcmWrite, pull_pcm, State.sampled]
  generalize advanceCursor _ _ = cursor, exciteNoise _ _ _ = noise
  rfl

/-- Settles O40: the decoder's three answers. -/
theorem bitstreamPull : Obligations.BitstreamPull := by
  intro s hm
  refine ⟨pull_of_ended hm, pull_of_malformed hm, fun f next h => ?_⟩
  rw [pull_of_frame hm h]
  exact exec_toInstr f _

/-- Settles O41: a record is left, or none is left and the decay is still to come, or not. -/
theorem queuePull : Obligations.QueuePull := by
  refine fun s hm => ⟨fun hlt => ?_, fun hge hdecay => ?_, fun hge hdecay => ?_⟩
  · rw [pull_of_record hm hlt]
    exact exec_toInstr _ _
  · rw [pull_of_exhausted hm hge, hdecay]
    exact exec_toInstr .silence _
  · rw [pull_of_exhausted hm hge, if_pos hdecay]
    rfl

/-- Settles O43: the pull from the installed queue, whose first record is the head of the list. -/
theorem loadFramesPullsFirstRecord : Obligations.LoadFramesPullsFirstRecord := by
  intro frames s hr hs
  refine ⟨_, exec_loadFrames_of_idle frames hr hs, ?_, ?_⟩
  · rintro f rest rfl
    exact (queuePull (s.installFrames (f :: rest)) rfl).1 (Nat.zero_lt_succ _)
  · rintro rfl
    exact (queuePull (s.installFrames []) rfl).2.1 (Nat.zero_le _) rfl

/-- Settles O44: neither the installs nor the pull writes the generators or the host side, and the counters go with the frame
pulled. -/
theorem loadsFrame : Obligations.LoadsFrame := by
  rintro i s t (⟨bytes, rfl⟩ | ⟨frames, rfl⟩) h
  · cases completes_of_exec h with
    | frame _ f hf => cases hf
    | load _ _ =>
      have hcounters := pull_installBits_counters bytes s
      simpa using hcounters
  · cases completes_of_exec h with
    | frame _ f hf => cases hf
    | loadFrames _ _ =>
      have hcounters := pull_installFrames_counters frames s
      simpa using hcounters

/-- Settles O2: what RESET keeps is the host's side. -/
theorem resetCommandRestoresEngine : Obligations.ResetCommandRestoresEngine := fun _ => rfl

/-- Settles O34, by the rule for the idle STEP. -/
theorem idleStepChangesNothing : Obligations.IdleStepChangesNothing := fun _ => exec_step_of_idle

/-- Settles O42, by the rule for LOAD while idle. -/
theorem loadPullsFirstFrame : Obligations.LoadPullsFirstFrame := fun bytes _ => exec_load_of_idle bytes

/-- Settles O45, by the rules for the loads while speaking. -/
theorem loadsWhileSpeakingRefused : Obligations.LoadsWhileSpeakingRefused := fun _ hr hs =>
  ⟨fun bytes => exec_load_of_speaking bytes hr hs, fun frames => exec_loadFrames_of_speaking frames hr hs⟩

/-- Settles O46, by the rule for STATUS. -/
theorem statusReportsFlags : Obligations.StatusReportsFlags := fun _ => exec_status_of_isReset

/-- Settles O47, by the head of the host's queue. -/
theorem stepRunsNextCommand : Obligations.StepRunsNextCommand := by
  refine ⟨fun s c rest h => ?_, fun s h => ?_⟩
  · rw [step, State.nextCommand, State.dropCommand, h]
    rfl
  · have hdrop : s.dropCommand = s := by rw [State.dropCommand, h, List.tail_nil, ← h]
    rw [step, hdrop, State.nextCommand, h]
    rfl

/-- Settles O48: the pull of a LOAD, and that of a STEP at a frame end, executes the frame the decoder answers. -/
theorem fetchedFrameIsExecuted : Obligations.FetchedFrameIsExecuted := by
  refine ⟨fun bytes s f next hr hs h => ?_, fun s f next hr hs hm hfits hend h => ?_⟩
  · rw [exec_load_of_idle bytes hr hs]
    exact ((bitstreamPull (s.installBits bytes) rfl).2.2 f next h).symm
  · obtain ⟨d', -, -, -, hstep⟩ := frameEndPromotesThenPulls s hr hs hfits hend
    generalize advanceCursor _ _ = cursor, exciteNoise _ _ _ = noise at hstep
    refine ⟨cursor, noise, d', _, _, ?_, hstep⟩
    rw [pull_of_frame (f := f) (next := next)]
    · exact exec_toInstr f _
    · exact hm
    · exact h

/-- Settles O49: the placed word is the buffer of the LOAD the next step runs. -/
theorem placedWordRunsNext : Obligations.PlacedWordRunsNext := by
  intro nbits w i s h
  unfold decodeTableWord at h
  split at h
  · next f next hframe =>
    cases h
    refine ⟨f, next, hframe, rfl, ?_⟩
    rw [stepRunsNextCommand.1 (s.withFetchWord nbits w) _ _ rfl]
    exact fetchedFrameIsExecuted.1 _ _ f next rfl rfl hframe
  · cases h
  · cases h

end Sys2Proof.Proofs
end

section
/-! The reset state, and the commands before the first RESET. -/

namespace Sys2Proof.Machine

/-- R292: whatever the command would answer after RESET, it is not asked. -/
theorem afterReset_of_not_isReset {s : State} (hr : s.isReset = false) (answer : Answer paramW latW) :
    afterReset s answer = .refused .beforeReset := by
  rw [afterReset, hr]
  rfl

/-- Both flags of the buffer hold once no byte is left, whatever the threshold of R36. -/
theorem bufferFlags_of_bytesLeft_eq_zero {s : State} (h : s.bytesLeft = 0) (cfg : Config) :
    s.bufferEmpty = true ∧ s.bufferLow cfg = true :=
  ⟨decide_eq_true h, decide_eq_true (h.le.trans (Nat.zero_le _))⟩

end Sys2Proof.Machine

namespace Sys2Proof.Proofs

open Sys2Proof Sys2Proof.Machine

/-- Settles O1: the registers and the delay line are replicated zeros, the buffer flags follow from the empty buffer, and
each other item stands in the reset state as it is. -/
theorem resetLeavesTheSpecValues : Obligations.ResetLeavesTheSpecValues := by
  have hregs (j : Fin 12) : State.reset.cur[j] = 0#11 ∧ State.reset.tgt[j] = 0#11 :=
    ⟨Vector.getElem_replicate j.isLt, Vector.getElem_replicate j.isLt⟩
  have hdelay (i : Fin 11) : State.reset.d[i] = 0#40 := Vector.getElem_replicate i.isLt
  exact ⟨hregs, rfl, rfl, rfl, rfl, hdelay, rfl, rfl, rfl, rfl, rfl, rfl, rfl, rfl, rfl, rfl,
    bufferFlags_of_bytesLeft_eq_zero rfl hw⟩

/-- Settles O3: the four commands stand behind `afterReset`, and RESET does not. -/
theorem commandsBeforeResetRefused : Obligations.CommandsBeforeResetRefused := fun s hr =>
  ⟨afterReset_of_not_isReset hr _, afterReset_of_not_isReset hr _, fun _ => afterReset_of_not_isReset hr _,
    fun _ => afterReset_of_not_isReset hr _, _, resetCommandRestoresEngine s, rfl⟩

/-- Settles O57, by the fields of the invariant in the reset state. -/
theorem resetMeetsInvariant : Obligations.ResetMeetsInvariant := State.Inv.reset

end Sys2Proof.Proofs
end
